-- ==== Sys2Proof/Word.lean ====
section
/-! DEFINITION. The widths of the machine's values (00_scope.md R3). -/

namespace Sys2Proof

/-- DATA_BITS: W, every file register and every 8-bit literal (R3, R10, R11). -/
abbrev Byte := BitVec 8

/-- FADDR_BITS: the file address field of an instruction (R3, R11). -/
abbrev FAddr := BitVec 7

/-- The bank-resolved (effective) file address `STATUS[5] : f` (R11). -/
abbrev EAddr := BitVec 8

/-- PC_BITS: a word address of program memory (R3, R17). -/
abbrev PAddr := BitVec 13

/-- INSTR_BITS: an instruction word (R3, R60). -/
abbrev IWord := BitVec 14

/-- The 16-bit container an instruction word is stored in (R69, U27). -/
abbrev Container := BitVec 16

end Sys2Proof
end

