-- ==== Sys2Proof/Syntax.lean ====
section
/-! DEFINITION. The 36 instructions (00_scope.md R2), one constructor per row of the opcode table. Operand
ranges (R6) are carried by the operand types; the don't-care bits of R68 are no operand and are not kept. -/

namespace Sys2Proof

/-- The destination selector d: "suivie de 0" selects W, "suivie de 1" selects F (R6, R80). -/
inductive Dest where
  | w
  | f
  deriving DecidableEq, Repr

/-- The destination an assembler takes when `d` is left out (R74, D30). -/
def Dest.omitted : Dest := .f

/-- The instructions, in the order of the opcode table (R66). RETURN is `ret`. -/
inductive Instr where
  | nop
  | ret
  | retfie
  | option
  | sleep
  | clrwdt
  | movwf (f : FAddr)
  | clrw
  | clrf (f : FAddr)
  | subwf (f : FAddr) (d : Dest)
  | decf (f : FAddr) (d : Dest)
  | iorwf (f : FAddr) (d : Dest)
  | andwf (f : FAddr) (d : Dest)
  | xorwf (f : FAddr) (d : Dest)
  | addwf (f : FAddr) (d : Dest)
  | movf (f : FAddr) (d : Dest)
  | comf (f : FAddr) (d : Dest)
  | incf (f : FAddr) (d : Dest)
  | decfsz (f : FAddr) (d : Dest)
  | rrf (f : FAddr) (d : Dest)
  | rlf (f : FAddr) (d : Dest)
  | swapf (f : FAddr) (d : Dest)
  | incfsz (f : FAddr) (d : Dest)
  | bcf (f : FAddr) (b : BitVec 3)
  | bsf (f : FAddr) (b : BitVec 3)
  | btfsc (f : FAddr) (b : BitVec 3)
  | btfss (f : FAddr) (b : BitVec 3)
  | call (k : BitVec 11)
  | goto (k : BitVec 11)
  | movlw (k : Byte)
  | retlw (k : Byte)
  | iorlw (k : Byte)
  | andlw (k : Byte)
  | xorlw (k : Byte)
  | sublw (k : Byte)
  | addlw (k : Byte)
  deriving DecidableEq, Repr

/-- The pseudo-instruction `MOVFW f`, another spelling of `MOVF f,0` (R73). -/
def Instr.movfw (f : FAddr) : Instr := .movf f .w

end Sys2Proof
end

