-- ==== Sys2Proof/Decode.lean ====
section
/-! DEFINITION. Decoding and encoding of the 14-bit instruction words (30_encoding.md R60 to R75). -/

namespace Sys2Proof

/-- The d field, bit 7 of a byte-oriented word (R61). -/
def Dest.ofBit (b : Bool) : Dest := if b then .f else .w

/-- The d field as it stands in the word (R61). -/
def Dest.toBit : Dest → BitVec 1
  | .w => 0
  | .f => 1

/-- The words with `word[13:7] = 0000000`: NOP with its don't-care bits 6:5, the operand-less control
instructions (format C, R63), and the 119 words of R70 that are none. -/
def decodeControl (w : IWord) : Option Instr :=
  match (w.extractLsb' 0 7).toNat with
  | 0x00 => some .nop
  | 0x20 => some .nop
  | 0x40 => some .nop
  | 0x60 => some .nop
  | 0x08 => some .ret
  | 0x09 => some .retfie
  | 0x62 => some .option
  | 0x63 => some .sleep
  | 0x64 => some .clrwdt
  | _ => none

/-- Formats B and C, `word[13:12] = 00` (R61, R63, R66). -/
def decodeByteOriented (w : IWord) : Option Instr :=
  let f := w.extractLsb' 0 7
  let d := Dest.ofBit (w.getLsbD 7)
  match (w.extractLsb' 8 4).toNat with
  | 0x0 => if w.getLsbD 7 then some (.movwf f) else decodeControl w
  | 0x1 => if w.getLsbD 7 then some (.clrf f) else some .clrw
  | 0x2 => some (.subwf f d)
  | 0x3 => some (.decf f d)
  | 0x4 => some (.iorwf f d)
  | 0x5 => some (.andwf f d)
  | 0x6 => some (.xorwf f d)
  | 0x7 => some (.addwf f d)
  | 0x8 => some (.movf f d)
  | 0x9 => some (.comf f d)
  | 0xA => some (.incf f d)
  | 0xB => some (.decfsz f d)
  | 0xC => some (.rrf f d)
  | 0xD => some (.rlf f d)
  | 0xE => some (.swapf f d)
  | 0xF => some (.incfsz f d)
  | _ => none

/-- Format T, `word[13:12] = 01` (R62, R66). -/
def decodeBitOriented (w : IWord) : Option Instr :=
  let f := w.extractLsb' 0 7
  let b := w.extractLsb' 7 3
  match (w.extractLsb' 10 2).toNat with
  | 0x0 => some (.bcf f b)
  | 0x1 => some (.bsf f b)
  | 0x2 => some (.btfsc f b)
  | 0x3 => some (.btfss f b)
  | _ => none

/-- Format J, `word[13:12] = 10` (R64, R66). -/
def decodeCallGoto (w : IWord) : Option Instr :=
  let k := w.extractLsb' 0 11
  if w.getLsbD 11 then some (.goto k) else some (.call k)

/-- Format L, `word[13:12] = 11` (R63, R66), with the don't-care bits of R68 left out of the match. Opcode
`1011` (the words 0x3B00 to 0x3BFF) is none (R70). -/
def decodeLiteral (w : IWord) : Option Instr :=
  let k := w.extractLsb' 0 8
  match (w.extractLsb' 8 4).toNat with
  | 0x0 => some (.movlw k)
  | 0x1 => some (.movlw k)
  | 0x2 => some (.movlw k)
  | 0x3 => some (.movlw k)
  | 0x4 => some (.retlw k)
  | 0x5 => some (.retlw k)
  | 0x6 => some (.retlw k)
  | 0x7 => some (.retlw k)
  | 0x8 => some (.iorlw k)
  | 0x9 => some (.andlw k)
  | 0xA => some (.xorlw k)
  | 0xC => some (.sublw k)
  | 0xD => some (.sublw k)
  | 0xE => some (.addlw k)
  | 0xF => some (.addlw k)
  | _ => none

/-- The instruction a 14-bit word encodes, by its two most significant bits (R66, R69); `none` for the
375 words of R70. -/
def decode (w : IWord) : Option Instr :=
  match (w.extractLsb' 12 2).toNat with
  | 0x0 => decodeByteOriented w
  | 0x1 => decodeBitOriented w
  | 0x2 => decodeCallGoto w
  | 0x3 => decodeLiteral w
  | _ => none

/-- A container with non-zero bits above bit 13 is not an instruction word (R69, D4). -/
def containerIsWord (c : Container) : Bool := c.extractLsb' 14 2 == 0

/-- The instruction stored in a container (R69). -/
def decodeContainer (c : Container) : Option Instr :=
  if containerIsWord c then decode (c.extractLsb' 0 14) else none

/-- The instruction read from the bits of `w`, numbered as the opcode table numbers them. -/
def decodeTableWord (nbits w : Nat) : Option Instr :=
  if w % 2 ^ nbits < 2 ^ 16 then decodeContainer (BitVec.ofNat 16 (w % 2 ^ nbits)) else none

/-- One row of the opcode table: `match` and `mask` (R66). -/
structure OpcodeRow where
  pattern : IWord
  mask    : IWord
  deriving DecidableEq, Repr

/-- The row of R66 an instruction belongs to. -/
def opcodeRow : Instr → OpcodeRow
  | .nop => ⟨0x0000, 0x3F9F⟩
  | .ret => ⟨0x0008, 0x3FFF⟩
  | .retfie => ⟨0x0009, 0x3FFF⟩
  | .option => ⟨0x0062, 0x3FFF⟩
  | .sleep => ⟨0x0063, 0x3FFF⟩
  | .clrwdt => ⟨0x0064, 0x3FFF⟩
  | .movwf _ => ⟨0x0080, 0x3F80⟩
  | .clrw => ⟨0x0100, 0x3F80⟩
  | .clrf _ => ⟨0x0180, 0x3F80⟩
  | .subwf _ _ => ⟨0x0200, 0x3F00⟩
  | .decf _ _ => ⟨0x0300, 0x3F00⟩
  | .iorwf _ _ => ⟨0x0400, 0x3F00⟩
  | .andwf _ _ => ⟨0x0500, 0x3F00⟩
  | .xorwf _ _ => ⟨0x0600, 0x3F00⟩
  | .addwf _ _ => ⟨0x0700, 0x3F00⟩
  | .movf _ _ => ⟨0x0800, 0x3F00⟩
  | .comf _ _ => ⟨0x0900, 0x3F00⟩
  | .incf _ _ => ⟨0x0A00, 0x3F00⟩
  | .decfsz _ _ => ⟨0x0B00, 0x3F00⟩
  | .rrf _ _ => ⟨0x0C00, 0x3F00⟩
  | .rlf _ _ => ⟨0x0D00, 0x3F00⟩
  | .swapf _ _ => ⟨0x0E00, 0x3F00⟩
  | .incfsz _ _ => ⟨0x0F00, 0x3F00⟩
  | .bcf _ _ => ⟨0x1000, 0x3C00⟩
  | .bsf _ _ => ⟨0x1400, 0x3C00⟩
  | .btfsc _ _ => ⟨0x1800, 0x3C00⟩
  | .btfss _ _ => ⟨0x1C00, 0x3C00⟩
  | .call _ => ⟨0x2000, 0x3800⟩
  | .goto _ => ⟨0x2800, 0x3800⟩
  | .movlw _ => ⟨0x3000, 0x3C00⟩
  | .retlw _ => ⟨0x3400, 0x3C00⟩
  | .iorlw _ => ⟨0x3800, 0x3F00⟩
  | .andlw _ => ⟨0x3900, 0x3F00⟩
  | .xorlw _ => ⟨0x3A00, 0x3F00⟩
  | .sublw _ => ⟨0x3C00, 0x3E00⟩
  | .addlw _ => ⟨0x3E00, 0x3E00⟩

/-- The fields of an instruction in their places (R61 to R65, R75): f at bits 6:0, d at bit 7, b at bits 9:7, an
8-bit k at bits 7:0, an 11-bit k at bits 10:0. -/
def encodeFields : Instr → IWord
  | .nop => 0
  | .ret => 0
  | .retfie => 0
  | .option => 0
  | .sleep => 0
  | .clrwdt => 0
  | .movwf f => f.setWidth 14
  | .clrw => 0
  | .clrf f => f.setWidth 14
  | .subwf f d => (d.toBit.setWidth 14 <<< 7) ||| f.setWidth 14
  | .decf f d => (d.toBit.setWidth 14 <<< 7) ||| f.setWidth 14
  | .iorwf f d => (d.toBit.setWidth 14 <<< 7) ||| f.setWidth 14
  | .andwf f d => (d.toBit.setWidth 14 <<< 7) ||| f.setWidth 14
  | .xorwf f d => (d.toBit.setWidth 14 <<< 7) ||| f.setWidth 14
  | .addwf f d => (d.toBit.setWidth 14 <<< 7) ||| f.setWidth 14
  | .movf f d => (d.toBit.setWidth 14 <<< 7) ||| f.setWidth 14
  | .comf f d => (d.toBit.setWidth 14 <<< 7) ||| f.setWidth 14
  | .incf f d => (d.toBit.setWidth 14 <<< 7) ||| f.setWidth 14
  | .decfsz f d => (d.toBit.setWidth 14 <<< 7) ||| f.setWidth 14
  | .rrf f d => (d.toBit.setWidth 14 <<< 7) ||| f.setWidth 14
  | .rlf f d => (d.toBit.setWidth 14 <<< 7) ||| f.setWidth 14
  | .swapf f d => (d.toBit.setWidth 14 <<< 7) ||| f.setWidth 14
  | .incfsz f d => (d.toBit.setWidth 14 <<< 7) ||| f.setWidth 14
  | .bcf f b => (b.setWidth 14 <<< 7) ||| f.setWidth 14
  | .bsf f b => (b.setWidth 14 <<< 7) ||| f.setWidth 14
  | .btfsc f b => (b.setWidth 14 <<< 7) ||| f.setWidth 14
  | .btfss f b => (b.setWidth 14 <<< 7) ||| f.setWidth 14
  | .call k => k.setWidth 14
  | .goto k => k.setWidth 14
  | .movlw k => k.setWidth 14
  | .retlw k => k.setWidth 14
  | .iorlw k => k.setWidth 14
  | .andlw k => k.setWidth 14
  | .xorlw k => k.setWidth 14
  | .sublw k => k.setWidth 14
  | .addlw k => k.setWidth 14

/-- The word of an instruction: "the `match` value of its row in rule R66 OR-ed with its fields" (R75), every don't-care
bit 0 (R68). -/
def encode (i : Instr) : IWord := (opcodeRow i).pattern ||| encodeFields i

/-- The container an instruction is stored in: its word with bits 15:14 zero (R69). -/
def encodeContainer (i : Instr) : Container := 0b00#2 ++ encode i

/-- The operand an assembler encodes for a CALL or GOTO to a program address: `address mod 2048` (R65, R75). -/
def assembleTarget (address : PAddr) : BitVec 11 := address.extractLsb' 0 11

/-- The word lies in the row: `(w AND mask) = match` (R66). -/
def OpcodeRow.matches (r : OpcodeRow) (w : IWord) : Bool := w &&& r.mask == r.pattern

end Sys2Proof
end

