-- ==== Sys2Proof/Machine/Constants.lean ====
section
/-! DEFINITION. Vectors, bit positions and reset values (00_scope.md R3, 10_state.md R13, R22, R32). -/

namespace Sys2Proof.Machine

/-- RESET_VECTOR (R3, R170). -/
def resetVector : PAddr := 0x0000

/-- IRQ_VECTOR (R3, R153). -/
def irqVector : PAddr := 0x0004

/-- STATUS bit C (R13). -/
def bitC : Nat := 0

/-- STATUS bit DC (R13). -/
def bitDC : Nat := 1

/-- STATUS bit Z (R13). -/
def bitZ : Nat := 2

/-- STATUS bit PD (R13). -/
def bitPD : Nat := 3

/-- STATUS bit TO (R13). -/
def bitTO : Nat := 4

/-- STATUS bit RP0, the bank select (R11, R13). -/
def bitRP0 : Nat := 5

/-- INTCON bit GIE (R22). -/
def bitGIE : Nat := 7

/-- OPTION_REG after reset (R32). -/
def optionAtReset : Byte := 0xFF

/-- PCLATH after reset (R32). -/
def pclathAtReset : BitVec 5 := 0

/-- STATUS after power-on: `0001 1xxx`, where `xxx` are the unspecified Z, DC, C (R32). -/
def statusAtPowerOn (zdc : BitVec 3) : Byte := 0b00011#5 ++ zdc

/-- INTCON after reset: `0000 000x`, where `x` is the unspecified bit 0 (R32). -/
def intconAtReset (bit0 : Bool) : Byte := 0b0000000#7 ++ BitVec.ofBool bit0

/-- Bit `i` of `b` given the value `x`; the other bits as they were. -/
def setBit (b : Byte) (i : Nat) (x : Bool) : Byte :=
  if x then b ||| (1#8 <<< i) else b &&& ~~~(1#8 <<< i)

end Sys2Proof.Machine
end

