-- ==== Sys2Proof/Machine/Flags.lean ====
section
/-! DEFINITION. The flags C, DC, Z and the results they are computed with (10_state.md R14, R16, R31). -/

namespace Sys2Proof.Machine

/-- The flags an instruction writes (R16) with the values it computes; `none` is a flag it does not affect. -/
structure FlagUpdate where
  c  : Option Bool
  dc : Option Bool
  z  : Option Bool
  deriving DecidableEq, Repr

/-- No flag affected. -/
def noFlags : FlagUpdate := ⟨none, none, none⟩

/-- Only Z affected: Z = 1 iff the result is 0x00 (R14). -/
def zOf (r : Byte) : FlagUpdate := ⟨none, none, some (r == 0)⟩

/-- Only C affected (the rotates, R16). -/
def cOnly (x : Bool) : FlagUpdate := ⟨some x, none, none⟩

/-- The instruction affects none of C, DC, Z: the set A of R31 is empty. -/
def FlagUpdate.affectsNone (u : FlagUpdate) : Bool := u.c.isNone && u.dc.isNone && u.z.isNone

/-- One flag at bit `i` of STATUS written, if it is affected. -/
def putFlag (i : Nat) (x : Option Bool) (status : Byte) : Byte :=
  match x with
  | none => status
  | some v => setBit status i v

/-- STATUS after an instruction's flags are written (R14, R81). -/
def applyFlags (u : FlagUpdate) (status : Byte) : Byte :=
  putFlag bitZ u.z (putFlag bitDC u.dc (putFlag bitC u.c status))

/-- STATUS after a file write of `v` by an instruction that affects the flags in `u`, before those flags are
written (R31): bits 7:5 take `v`, TO and PD are not writable, bits 2:0 take `v` only if no flag is affected. -/
def statusAfterFileWrite (u : FlagUpdate) (v old : Byte) : Byte :=
  if u.affectsNone then (v &&& 0xE7) ||| (old &&& 0x18) else (v &&& 0xE0) ||| (old &&& 0x1F)

/-- The flags of an addition a + b (R14): carry out of bit 7, carry out of bit 3, zero. -/
def addFlags (a b : Byte) : FlagUpdate :=
  ⟨some (decide (255 < a.toNat + b.toNat)), some (decide (15 < a.toNat % 16 + b.toNat % 16)), some (a + b == 0)⟩

/-- The flags of a subtraction m - w "par la méthode du complément à 2" (R14): the carries of m + NOT w + 1. -/
def subFlags (m w : Byte) : FlagUpdate :=
  ⟨some (decide (255 < m.toNat + (255 - w.toNat) + 1)),
    some (decide (15 < m.toNat % 16 + (15 - w.toNat % 16) + 1)), some (m - w == 0)⟩

/-- `m[6:0] : c`, one place left through the carry (40_byte_oriented.md R97, R98). -/
def rotateLeft (m : Byte) (c : Bool) : Byte := m.extractLsb' 0 7 ++ BitVec.ofBool c

/-- `c : m[7:1]`, one place right through the carry (40_byte_oriented.md R97, R99). -/
def rotateRight (m : Byte) (c : Bool) : Byte := BitVec.ofBool c ++ m.extractLsb' 1 7

/-- `m[3:0] : m[7:4]` (40_byte_oriented.md R101). -/
def swapNibbles (m : Byte) : Byte := m.extractLsb' 0 4 ++ m.extractLsb' 4 4

end Sys2Proof.Machine
end

