-- ==== Sys2Proof/Config.lean ====
section
/-! DEFINITION. What an implementation fixes (00_scope.md R3, 10_state.md R30, 92_eei_decisions.md) and the
free value of peripheral reads (10_state.md R28). -/

namespace Sys2Proof

/-- The registers of the core that have a file address of their own (10_state.md R30; INDF has none, R27). -/
inductive Sfr where
  | pcl
  | status
  | fsr
  | pclath
  | intcon
  | optionReg
  deriving DecidableEq, Repr

/-- Names of peripheral registers: those of the reference map (10_state.md R30), or another part's. -/
inductive Peripheral where
  | tmr0
  | porta
  | portb
  | trisa
  | trisb
  | eedata
  | eeadr
  | eecon1
  | eecon2
  | other (n : Nat)
  deriving DecidableEq, Repr

/-- The class DEVICE_MAP gives one effective address (10_state.md R30). -/
inductive RegClass where
  | gpr
  | indf
  | core (r : Sfr)
  | peripheral (n : Peripheral)
  | mirror (target : EAddr)
  | unimplemented
  deriving DecidableEq, Repr

/-- The class a region of DEVICE_MAP gives each of its addresses. A mirrored region shows, at each of its
addresses, the storage `offset` below it (10_state.md R30: "Mirror(address - 0x80)"). -/
inductive RegionKind where
  | gpr
  | indf
  | core (r : Sfr)
  | peripheral (n : Peripheral)
  | mirror (offset : EAddr)
  | unimplemented
  deriving DecidableEq, Repr

/-- The addresses `first` to `last` of DEVICE_MAP. -/
structure Region where
  first : Nat
  last  : Nat
  kind  : RegionKind
  deriving DecidableEq, Repr

/-- Where an interrupt source shows its request: a flag bit of INTCON, or the request line of the peripherals,
which lies outside INTCON (60_exceptions.md R151). -/
inductive IrqFlag where
  | intconBit (bit : Fin 8)
  | line
  deriving DecidableEq, Repr

/-- One interrupt source: its enable bit in INTCON and its flag (60_exceptions.md R151). -/
structure IrqSource where
  enable : Fin 8
  flag   : IrqFlag
  deriving DecidableEq, Repr

/-- The parameters of the machine (00_scope.md R3), fixed for a machine: no step changes them. -/
structure Part where
  /-- DEVICE_MAP: the first region that holds an address gives its class; an address in none is
  Unimplemented (10_state.md R30). -/
  deviceMap  : List Region
  /-- PROG_WORDS: implemented words of program memory (20_memory.md R41). -/
  progWords  : Nat
  /-- STACK_DEPTH: entries of the return stack (10_state.md R21). -/
  stackDepth : Nat
  /-- WDTE: the watchdog is enabled (60_exceptions.md R159). -/
  wdte       : Bool
  /-- External reset allowed (70_reset_and_hazards.md R171, D40). -/
  extReset   : Bool
  /-- The function irq_pending (60_exceptions.md R151). -/
  irqSources : List IrqSource
  deriving DecidableEq, Repr

/-- FREE VALUE: what the n-th read of a peripheral register returns when nothing is scheduled for it: the
`draw` of 10_state.md R28, "a value chosen by the environment" under no law (log 6). -/
opaque Config.freeByte : Nat → Byte

end Sys2Proof
end

