-- ==== Sys2Proof/Machine/DeviceMap.lean ====
section
/-! DEFINITION. DEVICE_MAP: the class of an address, mirrors, and the reference part (10_state.md R30). -/

namespace Sys2Proof.Machine

/-- The class a region's kind gives the address `a`. -/
def kindAt (k : RegionKind) (a : EAddr) : RegClass :=
  match k with
  | .gpr => .gpr
  | .indf => .indf
  | .core r => .core r
  | .peripheral n => .peripheral n
  | .mirror offset => .mirror (a - offset)
  | .unimplemented => .unimplemented

/-- The class of an address in a list of regions: the first region that holds it (R30). -/
def classIn : List Region → EAddr → RegClass
  | [], _ => .unimplemented
  | g :: gs, a => if g.first ≤ a.toNat ∧ a.toNat ≤ g.last then kindAt g.kind a else classIn gs a

/-- DEVICE_MAP of a part (R30). -/
def classOf (p : Part) (a : EAddr) : RegClass := classIn p.deviceMap a

/-- The address whose storage `a` shows, and its class: mirrors followed, at most `fuel` of them
("the same storage as address a'", R30; `MemRead(a', 1)` for `Mirror(a')`, R42). A map has 256 addresses, so 256
mirrors followed without an end are a cycle, to which R42 gives no storage. -/
def followMirrors (p : Part) : Nat → EAddr → EAddr × RegClass
  | 0, a => (a, .unimplemented)
  | fuel + 1, a =>
    match classOf p a with
    | .mirror target => followMirrors p fuel target
    | c => (a, c)

/-- The storage an address names (R30, R42). -/
def storageOf (p : Part) (a : EAddr) : EAddr × RegClass := followMirrors p 257 a

/-- The reference instance of DEVICE_MAP (R30, the register map of the PIC16F84). -/
def referenceMap : List Region :=
  [ ⟨0x00, 0x00, .indf⟩,
    ⟨0x01, 0x01, .peripheral .tmr0⟩,
    ⟨0x02, 0x02, .core .pcl⟩,
    ⟨0x03, 0x03, .core .status⟩,
    ⟨0x04, 0x04, .core .fsr⟩,
    ⟨0x05, 0x05, .peripheral .porta⟩,
    ⟨0x06, 0x06, .peripheral .portb⟩,
    ⟨0x07, 0x07, .unimplemented⟩,
    ⟨0x08, 0x08, .peripheral .eedata⟩,
    ⟨0x09, 0x09, .peripheral .eeadr⟩,
    ⟨0x0A, 0x0A, .core .pclath⟩,
    ⟨0x0B, 0x0B, .core .intcon⟩,
    ⟨0x0C, 0x4F, .gpr⟩,
    ⟨0x50, 0x7F, .unimplemented⟩ ] ++
  [ ⟨0x80, 0x80, .indf⟩,
    ⟨0x81, 0x81, .core .optionReg⟩,
    ⟨0x82, 0x82, .core .pcl⟩,
    ⟨0x83, 0x83, .core .status⟩,
    ⟨0x84, 0x84, .core .fsr⟩,
    ⟨0x85, 0x85, .peripheral .trisa⟩,
    ⟨0x86, 0x86, .peripheral .trisb⟩,
    ⟨0x87, 0x87, .unimplemented⟩,
    ⟨0x88, 0x88, .peripheral .eecon1⟩,
    ⟨0x89, 0x89, .peripheral .eecon2⟩,
    ⟨0x8A, 0x8A, .core .pclath⟩,
    ⟨0x8B, 0x8B, .core .intcon⟩,
    ⟨0x8C, 0xCF, .mirror 0x80⟩,
    ⟨0xD0, 0xFF, .unimplemented⟩ ]

/-- The interrupt sources of the reference device: T0IE and T0IF, INTE and INTF, RBIE and RBIF, EEIE and the
peripherals' line (60_exceptions.md R151). -/
def referenceIrqSources : List IrqSource :=
  [⟨5, .intconBit 2⟩, ⟨4, .intconBit 1⟩, ⟨3, .intconBit 0⟩, ⟨6, .line⟩]

/-- The part with the reference value of every parameter (00_scope.md R3, 92_eei_decisions.md). -/
def referencePart : Part :=
  { deviceMap := referenceMap
    progWords := 1024
    stackDepth := 8
    wdte := false
    extReset := false
    irqSources := referenceIrqSources }

end Sys2Proof.Machine
end

