-- ==== Sys2Proof/Machine/State.lean ====
section
/-! DEFINITION. The machine's state, the reasons a step stops, and reset (10_state.md, 00_scope.md R8). -/

namespace Sys2Proof.Machine

/-- Data memory: the general-purpose registers of the register file, as (effective address, byte) pairs with
strictly rising addresses and no byte equal to what an unlisted address reads as (20_memory.md R40). -/
abbrev Memory := List Host.Cell

/-- Program memory: (word address, container) pairs with strictly rising addresses (20_memory.md R40, R41). -/
abbrev Program := List (Nat × Container)

/-- The abstract value of the watchdog timer and of its prescaler: "cleared" (just after CLRWDT or SLEEP) or
"running" (10_state.md R24). -/
inductive WdtPhase where
  | cleared
  | running
  deriving DecidableEq, Repr

/-- What is left of a wake-up by interrupt (60_exceptions.md R160): nothing; the instruction at pc must still run
first; it has run and the entry is due. -/
inductive WakePhase where
  | idle
  | instrFirst
  | entryDue
  deriving DecidableEq, Repr

/-- A write to a peripheral register, "recorded as an output event" (10_state.md R28, 20_memory.md R43). -/
structure OutputEvent where
  register : Peripheral
  address  : EAddr
  value    : Byte
  deriving DecidableEq, Repr

/-- What an external or watchdog reset leaves unspecified (70_reset_and_hazards.md R171 with 10_state.md R32):
FSR; Z, DC, C; INTCON bit 0 (log 20). -/
structure ResetValues where
  fsr     : Byte
  zdc     : BitVec 3
  intcon0 : Bool
  deriving DecidableEq, Repr

/-- What the environment does at one instruction boundary (60_exceptions.md R151, R152, R155, R159, R160). -/
structure Boundary where
  /-- An external reset (R171). -/
  externalReset : Option ResetValues
  /-- A watchdog time-out (R159). -/
  watchdog      : Option ResetValues
  /-- The INTCON flag bits the environment sets (R151); bits that are no source's flag are not touched. -/
  setFlags      : Byte
  /-- The request line of the peripherals (`periph_irq`, R151). -/
  line          : Bool
  /-- Whether an entry that qualifies is taken at this boundary (R152, D20). -/
  admitEntry    : Bool
  deriving DecidableEq, Repr

/-- The boundary at which the environment does nothing; an entry that qualifies is taken. It stands where nothing is
scheduled (DESIGN CHOICE, log 8). -/
def quietBoundary : Boundary :=
  { externalReset := none, watchdog := none, setFlags := 0, line := false, admitEntry := true }

/-- The whole state of the machine. -/
structure State where
  /-- The parameters (00_scope.md R3): fixed, no step changes them. -/
  part         : Part
  /-- Program memory (20_memory.md R41): fixed, no step changes it (R52). -/
  prog         : Program
  /-- The address of the instruction being executed (10_state.md R17). -/
  pc           : PAddr
  /-- The working register W (R10). -/
  w            : Byte
  /-- STATUS (R13). -/
  status       : Byte
  /-- PCLATH, its five implemented bits (R20). -/
  pclath       : BitVec 5
  /-- FSR (R27). -/
  fsr          : Byte
  /-- INTCON (R22). -/
  intcon       : Byte
  /-- The OPTION register (R23). -/
  optionReg    : Byte
  /-- The general-purpose registers (R12). -/
  ram          : Memory
  /-- The return stack, top first (R21). -/
  stack        : List PAddr
  /-- The watchdog timer (R24). -/
  wdt          : WdtPhase
  /-- The watchdog's prescaler (R24). -/
  wdtPrescaler : WdtPhase
  /-- Sleep mode (R26). -/
  asleep       : Bool
  /-- What is left of a wake-up by interrupt (60_exceptions.md R160). -/
  wake         : WakePhase
  /-- The output events, oldest first (R28). -/
  outputs      : List OutputEvent
  /-- The model's own field: the values the coming peripheral reads return (R28, log 6). -/
  portInputs   : List Byte
  /-- The model's own field: how many peripheral reads have happened (log 6). -/
  draws        : Nat
  /-- The model's own field: the environment's inputs at the coming boundaries (60_exceptions.md R162, log 8). -/
  env          : List Boundary
  deriving DecidableEq, Repr

/-- Why the machine stops with a fault: the reasons of `ModelFault` (00_scope.md R8) and the stuck state of sleep. -/
inductive Fault where
  /-- CALL or interrupt entry on a full stack (10_state.md R21, D12). Safe: the chip overwrites its oldest entry. -/
  | stackOverflow
  /-- RETURN, RETLW or RETFIE on an empty stack (10_state.md R21, D12). Safe: the chip pops a stale entry. -/
  | stackUnderflow
  /-- A step of the sleeping core with no wake-up event pending or scheduled: "it has no instruction step at all"
  (00_scope.md R8, 93_implementation_defined.md U17). Safe: the chip sleeps on. -/
  | stuckAsleep
  deriving DecidableEq, Repr

/-- Why the machine refuses: the reasons of `Refuse` (00_scope.md R8), and the two of this model's making. -/
inductive Refusal where
  /-- An instruction without a meaning, from its arm of `exec`; no arm is left so. Safe. -/
  | notModelled (mnemonic : String)
  /-- The container at pc holds none of the 16009 defined words (30_encoding.md R69, R70). Raised by the fetch.
  Safe. -/
  | undefinedOpcode
  /-- pc is not below PROG_WORDS (20_memory.md R41). Raised by the fetch. Safe: the chip wraps. -/
  | fetchOutsideProgram
  /-- No program word was ever stored at pc (93_implementation_defined.md U3). Raised by the fetch. Safe. -/
  | unprogrammedWord
  /-- The operand's address is Unimplemented (10_state.md R30, 40_byte_oriented.md R81). Raised by every instruction
  with an f operand. Safe: the chip reads 0 and drops the write. -/
  | unimplementedFile
  /-- DECFSZ or INCFSZ with PCL as destination (10_state.md R19). Safe: documented nowhere. -/
  | undefinedCombination
  deriving DecidableEq, Repr

/-- What power-on leaves unspecified (10_state.md R32): W, every GPR, FSR, Z DC C, INTCON bit 0. -/
structure PowerOnValues where
  w       : Byte
  fsr     : Byte
  zdc     : BitVec 3
  intcon0 : Bool
  ram     : Memory
  deriving DecidableEq, Repr

/-- The machine right after power-on reset (10_state.md R32, 70_reset_and_hazards.md R170), of any part with any
program, with any value of what R32 leaves unspecified. -/
def State.powerOn (part : Part) (prog : Program) (v : PowerOnValues) : State :=
  { part := part
    prog := prog
    pc := resetVector
    w := v.w
    status := statusAtPowerOn v.zdc
    pclath := pclathAtReset
    fsr := v.fsr
    intcon := intconAtReset v.intcon0
    optionReg := optionAtReset
    ram := v.ram
    stack := []
    wdt := .cleared
    wdtPrescaler := .cleared
    asleep := false
    wake := .idle
    outputs := []
    portInputs := []
    draws := 0
    env := [] }

/-- The values this model names where R32 gives none: zero (DESIGN CHOICE, unsafe, log 4 and log 5). -/
def PowerOnValues.named : PowerOnValues := { w := 0, fsr := 0, zdc := 0, intcon0 := false, ram := [] }

/-- The reference part right after power-on reset, nothing loaded. -/
def State.reset : State := State.powerOn referencePart [] PowerOnValues.named

end Sys2Proof.Machine
end

