-- ==== Sys2Proof/Machine/Ops.lean ====
section
/-! DEFINITION. The operations over memory, registers and the stack; interrupt entry and return; sleep and
wake-up; the resets (20_memory.md R41 to R43, 10_state.md R19 to R28, 60_exceptions.md R151 to R160,
70_reset_and_hazards.md R171). -/

namespace Sys2Proof.Machine

/-- A meaning's answer: a next state, a fault or a refusal. -/
abbrev Outcome := Host.Outcome State Fault Refusal

/-! ### Data memory and program memory -/

/-- What a general-purpose register that nothing has written reads as (DESIGN CHOICE, log 5). -/
def unlistedByte : Byte := 0

/-- The byte at an address of data memory (R12: "a read returns the last value written"). -/
def ramGet : Memory → Nat → Byte
  | [], _ => unlistedByte
  | (a, v) :: m, k => if k = a then v else ramGet m k

/-- Data memory with one cell put in front, unless the cell holds what an unlisted address reads as. -/
def consCell (k : Nat) (v : Byte) (m : Memory) : Memory := if v = unlistedByte then m else (k, v) :: m

/-- Data memory with the byte `v` stored at `k`, in canonical form again (R12: "a write stores the byte"). -/
def ramSet : Memory → Nat → Byte → Memory
  | [], k, v => consCell k v []
  | (a, x) :: m, k, v =>
    if k < a then consCell k v ((a, x) :: m)
    else if k = a then consCell k v m
    else (a, x) :: ramSet m k v

/-- The canonical form of data memory: addresses strictly rising, none listed with the byte an unlisted address
reads as. -/
def Memory.wf : Memory → Bool
  | [] => true
  | [(_, v)] => v != unlistedByte
  | (a, v) :: (b, x) :: m => v != unlistedByte && decide (a < b) && Memory.wf ((b, x) :: m)

/-- The container at a word address of program memory; `none` where no word was ever stored. -/
def progGet : Program → Nat → Option Container
  | [], _ => none
  | (a, c) :: m, k => if k = a then some c else progGet m k

/-- Program memory with the container `c` stored at `k`: what loading a program does. No step calls it (R52). -/
def progSet : Program → Nat → Container → Program
  | [], k, c => [(k, c)]
  | (a, x) :: m, k, c =>
    if k < a then (k, c) :: (a, x) :: m
    else if k = a then (k, c) :: m
    else (a, x) :: progSet m k c

/-- The canonical form of program memory: addresses strictly rising. -/
def Program.wf : Program → Bool
  | [] => true
  | [_] => true
  | (a, _) :: (b, x) :: m => decide (a < b) && Program.wf ((b, x) :: m)

/-- `Fetch(p)` and its decoding (R41, 30_encoding.md R69): the instruction at word address p. -/
def fetchAt (s : State) (p : PAddr) : Except Refusal Instr :=
  if p.toNat < s.part.progWords then
    match progGet s.prog p.toNat with
    | none => .error .unprogrammedWord
    | some c =>
      match decodeContainer c with
      | none => .error .undefinedOpcode
      | some i => .ok i
  else .error .fetchOutsideProgram

/-! ### Fields of registers -/

/-- The carry flag (R13). -/
def State.carry (s : State) : Bool := s.status.getLsbD bitC

/-- GIE, the global interrupt enable (R22). -/
def State.gie (s : State) : Bool := s.intcon.getLsbD bitGIE

/-- The next sequential address, `(pc + 1) mod 8192` (R18). -/
def State.advance (s : State) : State := { s with pc := s.pc + 1 }

/-- The flags of an instruction written to STATUS (R14, 40_byte_oriented.md R81). -/
def State.withFlags (u : FlagUpdate) (s : State) : State := { s with status := applyFlags u s.status }

/-- TO and PD given values (R15). -/
def State.withToPd (timeOut powerDown : Bool) (s : State) : State :=
  { s with status := setBit (setBit s.status bitTO timeOut) bitPD powerDown }

/-- GIE given the value `x` (R22). -/
def State.withGie (x : Bool) (s : State) : State := { s with intcon := setBit s.intcon bitGIE x }

/-- The watchdog and its prescaler cleared (R24). -/
def State.clearWatchdog (s : State) : State := { s with wdt := .cleared, wdtPrescaler := .cleared }

/-! ### The storage behind a file address (R42, R43) -/

/-- Where an access to the register file goes, after mirrors and INDF are resolved: nothing at all (INDF reached
through itself, R27), a general-purpose register, a core register, or a peripheral register. -/
inductive Loc where
  | null
  | ram (a : EAddr)
  | sfr (r : Sfr)
  | port (n : Peripheral) (a : EAddr)
  deriving DecidableEq, Repr

/-- The location of an address whose class is not INDF; `none` where nothing is implemented (R30). -/
def plainLoc (a : EAddr) (c : RegClass) : Option Loc :=
  match c with
  | .gpr => some (.ram a)
  | .indf => some .null
  | .core r => some (.sfr r)
  | .peripheral n => some (.port n a)
  | .mirror _ => none
  | .unimplemented => none

/-- The location an access to effective address `a` reaches (R42, R43): INDF goes through FSR, and INDF reached
through FSR is no register (R27). -/
def locate (s : State) (a : EAddr) : Option Loc :=
  match storageOf s.part a with
  | (_, .indf) => plainLoc (storageOf s.part s.fsr).1 (storageOf s.part s.fsr).2
  | (p, c) => plainLoc p c

/-- The value of a core register when a file instruction reads it (R42). PCL reads as the low byte of pc + 1 (R19),
PCLATH with bits 7:5 zero (R20). -/
def readSfr (r : Sfr) (s : State) : Byte :=
  match r with
  | .pcl => (s.pc + 1).extractLsb' 0 8
  | .status => s.status
  | .fsr => s.fsr
  | .pclath => 0b000#3 ++ s.pclath
  | .intcon => s.intcon
  | .optionReg => s.optionReg

/-- A core register written by a file instruction that affects the flags in `u` (R43). A write to PCL sets pc to
`PCLATH[4:0] : v` (R19); a write to STATUS follows R31; bits 7:5 of a byte written to PCLATH are discarded (R20). -/
def writeSfr (u : FlagUpdate) (r : Sfr) (v : Byte) (s : State) : State :=
  match r with
  | .pcl => { s with pc := s.pclath ++ v }
  | .status => { s with status := statusAfterFileWrite u v s.status }
  | .fsr => { s with fsr := v }
  | .pclath => { s with pclath := v.extractLsb' 0 5 }
  | .intcon => { s with intcon := v }
  | .optionReg => { s with optionReg := v }

/-- The value of a peripheral read: the environment's next scheduled value, else a free value (R28). -/
def portValue (s : State) : Byte := s.portInputs.headD (Config.freeByte s.draws)

/-- `MemRead` at a location: the byte read (R42). -/
def readLoc (l : Loc) (s : State) : Byte :=
  match l with
  | .null => 0x00
  | .ram a => ramGet s.ram a.toNat
  | .sfr r => readSfr r s
  | .port _ _ => portValue s

/-- `MemRead` at a location: the state after it. Only a peripheral read changes anything, the draws (R48). -/
def afterRead (l : Loc) (s : State) : State :=
  match l with
  | .null => s
  | .ram _ => s
  | .sfr _ => s
  | .port _ _ => { s with portInputs := s.portInputs.tail, draws := s.draws + 1 }

/-- `MemWrite` at a location by an instruction that affects the flags in `u` (R43). -/
def writeLoc (u : FlagUpdate) (l : Loc) (v : Byte) (s : State) : State :=
  match l with
  | .null => s
  | .ram a => { s with ram := ramSet s.ram a.toNat v }
  | .sfr r => writeSfr u r v s
  | .port n a => { s with outputs := s.outputs ++ [⟨n, a, v⟩] }

/-! ### The return stack (R21) -/

/-- `push(v)`. -/
def push (v : PAddr) (s : State) : Except Fault State :=
  if s.stack.length < s.part.stackDepth then .ok { s with stack := v :: s.stack } else .error .stackOverflow

/-- `pop()`. -/
def pop (s : State) : Except Fault (PAddr × State) :=
  match s.stack with
  | [] => .error .stackUnderflow
  | v :: rest => .ok (v, { s with stack := rest })

/-! ### Interrupt entry and return (60_exceptions.md R151 to R156) -/

/-- Interrupt entry (R153), the one exception this machine takes: GIE cleared, the address of the next instruction
pushed, pc at the vector; nothing else saved or changed. -/
def interruptEntry (s : State) : Outcome :=
  match push s.pc (s.withGie false) with
  | .error r => .fault r
  | .ok s1 => .next { s1 with pc := irqVector, wake := .idle }

/-- The return all of RETURN, RETLW and RETFIE share: `pc <- pop()` (R129, D36). -/
def returnFromStack (s : State) : Outcome :=
  match pop s with
  | .error r => .fault r
  | .ok (a, s1) => .next { s1 with pc := a }

/-- The return from an interrupt (42_literal_control.md R127): `pc <- pop()`, GIE set, nothing else restored. -/
def returnFromInterrupt (s : State) : Outcome :=
  match pop s with
  | .error r => .fault r
  | .ok (a, s1) => .next ({ s1 with pc := a }.withGie true)

/-- One interrupt source requests: its enable bit is set and so is its flag (R151). -/
def sourcePending (intcon : Byte) (line : Bool) (x : IrqSource) : Bool :=
  intcon.getLsbD x.enable &&
    match x.flag with
    | .intconBit b => intcon.getLsbD b
    | .line => line

/-- `irq_pending` (R151). -/
def irqPending (line : Bool) (s : State) : Bool := s.part.irqSources.any (sourcePending s.intcon line)

/-- The bits of INTCON that are flag bits of some source: those the environment may set (R151, D39). -/
def flagMask : List IrqSource → Byte
  | [] => 0
  | x :: xs =>
    match x.flag with
    | .intconBit b => (1#8 <<< b.val) ||| flagMask xs
    | .line => flagMask xs

/-- The environment sets flag bits of INTCON (R151). -/
def State.raiseFlags (bits : Byte) (s : State) : State :=
  { s with intcon := s.intcon ||| (bits &&& flagMask s.part.irqSources) }

/-! ### Resets, watchdog time-out and wake-up (R24, R159, R160, R171) -/

/-- What every reset but power-on does (R171: "W, GPR unchanged; control registers to their reset values"), TO and PD
apart: pc at the reset vector, Bank 0, stack empty, awake (R170). -/
def controlReset (v : ResetValues) (s : State) : State :=
  { s with
    pc := resetVector
    status := 0b000#3 ++ (s.status.extractLsb' 3 2 ++ v.zdc)
    pclath := pclathAtReset
    fsr := v.fsr
    intcon := intconAtReset v.intcon0
    optionReg := optionAtReset
    stack := []
    wdt := .cleared
    wdtPrescaler := .cleared
    asleep := false
    wake := .idle }

/-- External reset: TO and PD unchanged while awake; TO = 1, PD = 0 during sleep (R160, R171). -/
def externalReset (v : ResetValues) (s : State) : State :=
  if s.asleep then (controlReset v s).withToPd true false else controlReset v s

/-- Watchdog time-out while awake: a reset with TO = 0 "and PD unchanged" (R159, which 92_eei_decisions.md D23 names for
the effect). So PD stays 1, the value R24 and R171 give, where it was 1, and 0 where it was 0 (DEDUCED, log 19). -/
def watchdogReset (v : ResetValues) (s : State) : State :=
  (controlReset v s).withToPd false (s.status.getLsbD bitPD)

/-- Watchdog time-out during sleep: awake again with TO = 0, PD = 0, going on at pc, no reset (R24, R159, R171). -/
def watchdogWake (s : State) : State :=
  { s with asleep := false, wake := .idle }.withToPd false false

/-- Wake-up by an interrupt request: the instruction at pc will run before any entry (R160). Every wake-up begins anew,
also where the first instruction after the last one was SLEEP and the entry was due: that entry is dropped, and one more
instruction runs before the entry (DESIGN CHOICE, log 22). -/
def interruptWake (s : State) : State := { s with asleep := false, wake := .instrFirst }

/-- The enabled watchdog runs on between instructions: its value is "cleared" only just after it was cleared (R24). -/
def State.tickWatchdog (s : State) : State :=
  if s.part.wdte then { s with wdt := .running, wdtPrescaler := .running } else s

/-! ### The instruction boundary (R152, R155) -/

/-- Whether interrupt entry is taken instead of the fetch: GIE and a request, where the environment admits the
entry (R152); just after a wake-up not before the first instruction, and then without the environment's leave (R160). -/
def takesEntry (pending admitted : Bool) (s : State) : Bool :=
  s.gie &&
    match s.wake with
    | .idle => pending && admitted
    | .instrFirst => false
    | .entryDue => pending || admitted

/-- How far a wake-up has come once an instruction is fetched (R160). -/
def WakePhase.next : WakePhase → WakePhase
  | .idle => .idle
  | .instrFirst => .entryDue
  | .entryDue => .idle

/-- The environment's input at the coming boundary: the head of the schedule, or the quiet boundary (log 8). -/
def State.nextBoundary (s : State) : Boundary := s.env.headD quietBoundary

/-- The schedule one boundary further. -/
def State.dropInput (s : State) : State := { s with env := s.env.tail }

/-- A wake-up that has come as far as `p` (R160). -/
def State.withWake (p : WakePhase) (s : State) : State := { s with wake := p }

/-- What happens at an instruction boundary: the step ends there, or goes on to the fetch in the given state. -/
inductive BoundaryResult where
  | ended (o : Outcome)
  | proceed (s : State)
  deriving Repr

/-- The boundary below the resets: sleep, then interrupt entry, then the fetch (R152, R155, R160). `scheduled` says that
the environment's schedule had an entry for this boundary. Sleep comes before an entry that is due, since R152 admits none
while asleep; where R160 has the entry follow, the first instruction after the wake-up being SLEEP, this is a DESIGN
CHOICE (log 22). -/
def boundaryBelowReset (scheduled : Bool) (b : Boundary) (s : State) : BoundaryResult :=
  let pending := irqPending b.line s
  if s.asleep then
    if pending then .ended (.next (interruptWake s))
    else if scheduled then .ended (.next s)
    else .ended (.fault .stuckAsleep)
  else if takesEntry pending b.admitEntry s then .ended (interruptEntry s)
  else .proceed (s.withWake s.wake.next)

/-- The external reset at a boundary, where the part allows one (R171, D40). -/
def externalResetAt (b : Boundary) (s : State) : Option ResetValues :=
  if s.part.extReset then b.externalReset else none

/-- The watchdog time-out at a boundary, where the watchdog is enabled (R159). -/
def watchdogAt (b : Boundary) (s : State) : Option ResetValues := if s.part.wdte then b.watchdog else none

/-- What every boundary begins with, whatever else it holds: the environment sets its flag bits (R151: "at any instruction
boundary"), and the enabled watchdog runs (R24). R155 does not order the flag bits; that they come before the reset, the
time-out and the sampling of `irq_pending` is the model's choice (DESIGN CHOICE, log 25). -/
def State.sample (b : Boundary) (s : State) : State := (s.raiseFlags b.setFlags).tickWatchdog

/-- One instruction boundary, in the order reset, watchdog time-out, interrupt entry, fetch (R155), after the flag bits. A
reset then gives INTCON its reset value; a wake-up by time-out keeps the bits set (log 25). -/
def atBoundary (scheduled : Bool) (b : Boundary) (s0 : State) : BoundaryResult :=
  let s := s0.sample b
  match externalResetAt b s with
  | some v => .ended (.next (externalReset v s))
  | none =>
    match watchdogAt b s with
    | some v => .ended (.next (if s.asleep then watchdogWake s else watchdogReset v s))
    | none => boundaryBelowReset scheduled b s

end Sys2Proof.Machine
end

