-- ==== Sys2Proof/Machine/Operands.lean ====
section
/-! DEFINITION. Operand forms: the file operand, the destination, the bit operand, the CALL and GOTO target
(30_encoding.md R65, 40_byte_oriented.md R80, R81, R89, 41_bit_oriented.md R110). -/

namespace Sys2Proof.Machine

/-- `ea(f) = STATUS[5] : f` (10_state.md R11). -/
def ea (s : State) (f : FAddr) : EAddr := BitVec.ofBool (s.status.getLsbD bitRP0) ++ f

/-- The location a file operand names, evaluated once, before the instruction writes anything (R80); `none` where
the address is Unimplemented. -/
def operand (s : State) (f : FAddr) : Option Loc := locate s (ea s f)

/-- An instruction with a file operand: refused where its address is Unimplemented (R81). -/
def withOperand (s : State) (f : FAddr) (k : Loc → Outcome) : Outcome :=
  match operand s f with
  | none => .refused .unimplementedFile
  | some l => k l

/-- `dest(d, f, v)` (R80), pc already at the next instruction, then the flags (R81). -/
def storeResult (d : Dest) (l : Loc) (v : Byte) (u : FlagUpdate) (s : State) : State :=
  (match d with
    | .w => { s.advance with w := v }
    | .f => writeLoc u l v s.advance).withFlags u

/-- The skip: pc one further if `taken` (R89). -/
def State.skipIf (taken : Bool) (s : State) : State := { s with pc := if taken then s.pc + 1 else s.pc }

/-- A byte-oriented instruction `f,d`: read the operand, compute from it, W and C, store the result and the flags. -/
def computeFd (compute : Byte → Byte → Bool → Byte × FlagUpdate) (f : FAddr) (d : Dest) (s : State) : Outcome :=
  withOperand s f fun l =>
    .next (storeResult d l (compute (readLoc l s) s.w s.carry).1 (compute (readLoc l s) s.w s.carry).2 (afterRead l s))

/-- The same with a skip when the result is 0 (R88, R91); with PCL as destination it is no defined combination (R19). -/
def computeFdSkip (compute : Byte → Byte) (f : FAddr) (d : Dest) (s : State) : Outcome :=
  withOperand s f fun l =>
    if d = .f ∧ l = .sfr .pcl then .refused .undefinedCombination
    else .next ((storeResult d l (compute (readLoc l s)) noFlags (afterRead l s)).skipIf (compute (readLoc l s) == 0))

/-- An instruction that writes `v` to its file operand without reading it (R47: CLRF, MOVWF). -/
def writeOnly (v : Byte) (u : FlagUpdate) (f : FAddr) (s : State) : Outcome :=
  withOperand s f fun l => .next (storeResult .f l v u s)

/-- BCF and BSF: the whole byte read, one bit changed, the whole byte written back (R110). -/
def changeBit (x : Bool) (f : FAddr) (b : BitVec 3) (s : State) : Outcome :=
  withOperand s f fun l => .next (storeResult .f l (setBit (readLoc l s) b.toNat x) noFlags (afterRead l s))

/-- BTFSC and BTFSS: skip if bit b of the operand is `x` (R113, R114). -/
def skipOnBit (x : Bool) (f : FAddr) (b : BitVec 3) (s : State) : Outcome :=
  withOperand s f fun l => .next ((afterRead l s).advance.skipIf ((readLoc l s).getLsbD b.toNat == x))

/-- An instruction that leaves its result in W and writes flags (42_literal_control.md R120). -/
def resultInW (v : Byte) (u : FlagUpdate) (s : State) : Outcome := .next ({ s.advance with w := v }.withFlags u)

/-- The target of CALL and GOTO, `PCLATH[4:3] : k` (43_call_goto.md R141, R142). -/
def pageTarget (s : State) (k : BitVec 11) : PAddr := s.pclath.extractLsb' 3 2 ++ k

end Sys2Proof.Machine
end

