-- ==== Sys2Proof/Machine/BitOriented.lean ====
section
/-! DEFINITION. The bit-oriented instructions (41_bit_oriented.md). -/

namespace Sys2Proof.Machine

/-- BCF f,b (R111). -/
def execBcf (f : FAddr) (b : BitVec 3) (s : State) : Outcome := changeBit false f b s

/-- BSF f,b (R112). -/
def execBsf (f : FAddr) (b : BitVec 3) (s : State) : Outcome := changeBit true f b s

/-- BTFSC f,b (R113): skip if the bit is clear. -/
def execBtfsc (f : FAddr) (b : BitVec 3) (s : State) : Outcome := skipOnBit false f b s

/-- BTFSS f,b (R114): skip if the bit is set. -/
def execBtfss (f : FAddr) (b : BitVec 3) (s : State) : Outcome := skipOnBit true f b s

end Sys2Proof.Machine
end

