-- ==== Sys2Proof/Machine/ByteOriented.lean ====
section
/-! DEFINITION. The byte-oriented instructions (40_byte_oriented.md). -/

namespace Sys2Proof.Machine

/-- ADDWF f,d (R82). -/
def execAddwf (f : FAddr) (d : Dest) (s : State) : Outcome := computeFd (fun m w _ => (m + w, addFlags m w)) f d s

/-- ANDWF f,d (R83). -/
def execAndwf (f : FAddr) (d : Dest) (s : State) : Outcome := computeFd (fun m w _ => (m &&& w, zOf (m &&& w))) f d s

/-- CLRF f (R84): Z is always set. -/
def execClrf (f : FAddr) (s : State) : Outcome := writeOnly 0x00 (zOf 0x00) f s

/-- CLRW (R85): Z is always set. -/
def execClrw (s : State) : Outcome := resultInW 0x00 (zOf 0x00) s

/-- COMF f,d (R86). -/
def execComf (f : FAddr) (d : Dest) (s : State) : Outcome := computeFd (fun m _ _ => (~~~m, zOf (~~~m))) f d s

/-- DECF f,d (R87). -/
def execDecf (f : FAddr) (d : Dest) (s : State) : Outcome := computeFd (fun m _ _ => (m - 1, zOf (m - 1))) f d s

/-- DECFSZ f,d (R88). -/
def execDecfsz (f : FAddr) (d : Dest) (s : State) : Outcome := computeFdSkip (fun m => m - 1) f d s

/-- INCF f,d (R90). -/
def execIncf (f : FAddr) (d : Dest) (s : State) : Outcome := computeFd (fun m _ _ => (m + 1, zOf (m + 1))) f d s

/-- INCFSZ f,d (R91). -/
def execIncfsz (f : FAddr) (d : Dest) (s : State) : Outcome := computeFdSkip (fun m => m + 1) f d s

/-- IORWF f,d (R93). -/
def execIorwf (f : FAddr) (d : Dest) (s : State) : Outcome := computeFd (fun m w _ => (m ||| w, zOf (m ||| w))) f d s

/-- MOVF f,d (R94): with d = 1 the register is written with its own value. -/
def execMovf (f : FAddr) (d : Dest) (s : State) : Outcome := computeFd (fun m _ _ => (m, zOf m)) f d s

/-- MOVWF f (R95). -/
def execMovwf (f : FAddr) (s : State) : Outcome := writeOnly s.w noFlags f s

/-- NOP (R96). -/
def execNop (s : State) : Outcome := .next s.advance

/-- RLF f,d (R97, R98). -/
def execRlf (f : FAddr) (d : Dest) (s : State) : Outcome :=
  computeFd (fun m _ c => (rotateLeft m c, cOnly (m.getLsbD 7))) f d s

/-- RRF f,d (R97, R99). -/
def execRrf (f : FAddr) (d : Dest) (s : State) : Outcome :=
  computeFd (fun m _ c => (rotateRight m c, cOnly (m.getLsbD 0))) f d s

/-- SUBWF f,d (R100): F minus W. -/
def execSubwf (f : FAddr) (d : Dest) (s : State) : Outcome := computeFd (fun m w _ => (m - w, subFlags m w)) f d s

/-- SWAPF f,d (R101). -/
def execSwapf (f : FAddr) (d : Dest) (s : State) : Outcome := computeFd (fun m _ _ => (swapNibbles m, noFlags)) f d s

/-- XORWF f,d (R102). -/
def execXorwf (f : FAddr) (d : Dest) (s : State) : Outcome := computeFd (fun m w _ => (m ^^^ w, zOf (m ^^^ w))) f d s

end Sys2Proof.Machine
end

