-- ==== Sys2Proof/Machine/CallGoto.lean ====
section
/-! DEFINITION. CALL and GOTO (43_call_goto.md). -/

namespace Sys2Proof.Machine

/-- CALL k (R141): push (pc + 1) mod 8192, then go to `PCLATH[4:3] : k`. -/
def execCall (k : BitVec 11) (s : State) : Outcome :=
  match push (s.pc + 1) s with
  | .error r => .fault r
  | .ok s1 => .next { s1 with pc := pageTarget s k }

/-- GOTO k (R142). -/
def execGoto (k : BitVec 11) (s : State) : Outcome := .next { s with pc := pageTarget s k }

end Sys2Proof.Machine
end

