-- ==== Sys2Proof/Machine/LiteralControl.lean ====
section
/-! DEFINITION. The literal and control instructions (42_literal_control.md). -/

namespace Sys2Proof.Machine

/-- ADDLW k (R121). -/
def execAddlw (k : Byte) (s : State) : Outcome := resultInW (s.w + k) (addFlags s.w k) s

/-- ANDLW k (R122). -/
def execAndlw (k : Byte) (s : State) : Outcome := resultInW (s.w &&& k) (zOf (s.w &&& k)) s

/-- CLRWDT (R123). -/
def execClrwdt (s : State) : Outcome := .next (s.advance.clearWatchdog.withToPd true true)

/-- IORLW k (R124). -/
def execIorlw (k : Byte) (s : State) : Outcome := resultInW (s.w ||| k) (zOf (s.w ||| k)) s

/-- MOVLW k (R125). -/
def execMovlw (k : Byte) (s : State) : Outcome := resultInW k noFlags s

/-- OPTION (R126): the OPTION register, whatever the bank bit is. -/
def execOption (s : State) : Outcome := .next { s.advance with optionReg := s.w }

/-- RETFIE (R127). -/
def execRetfie (s : State) : Outcome := returnFromInterrupt s

/-- RETLW k (R128). -/
def execRetlw (k : Byte) (s : State) : Outcome := returnFromStack { s with w := k }

/-- RETURN (R129). -/
def execRet (s : State) : Outcome := returnFromStack s

/-- SLEEP (R130): pc stands at the following instruction while the core is asleep. -/
def execSleep (s : State) : Outcome := .next { s.advance.clearWatchdog.withToPd true false with asleep := true }

/-- SUBLW k (R131): literal minus W. -/
def execSublw (k : Byte) (s : State) : Outcome := resultInW (k - s.w) (subFlags k s.w) s

/-- XORLW k (R132). -/
def execXorlw (k : Byte) (s : State) : Outcome := resultInW (s.w ^^^ k) (zOf (s.w ^^^ k)) s

end Sys2Proof.Machine
end

