-- ==== Sys2Proof/Machine/Step.lean ====
section
/-! DEFINITION. One step of the machine (60_exceptions.md R152, R155, R162), and the load of one word. -/

namespace Sys2Proof.Machine

/-- Fetch, decode and execute the instruction at pc (20_memory.md R41, 30_encoding.md R69). -/
def fetchExec (s : State) : Outcome :=
  match fetchAt s s.pc with
  | .error r => .refused r
  | .ok i => exec i s

/-- One step: the environment's input at this boundary is taken from the schedule, then the boundary ends the step
(a reset, a time-out, a wake-up, an interrupt entry) or the instruction at pc runs. -/
def step (s : State) : Host.Outcome State Fault Refusal :=
  match atBoundary (!s.env.isEmpty) s.nextBoundary s.dropInput with
  | .ended o => o
  | .proceed s1 => fetchExec s1

/-- The state with the instruction whose bits are `w` stored where the next instruction is fetched: at pc. -/
def State.withFetchWord (s : State) (nbits w : Nat) : State :=
  { s with prog := progSet s.prog s.pc.toNat (BitVec.ofNat 16 (w % 2 ^ nbits)) }

end Sys2Proof.Machine
end

