-- ==== Sys2Proof/Machine/Assembler.lean ====
section
/-! DEFINITION. The assembler syntax of the source: lines, number forms, the pseudo-instruction and the omitted
destination (30_encoding.md R71 to R75). No step reads it; it turns a source text into program memory. Text is a list
of characters; what is not written as R71 and R72 show it is `none` (log 29). -/

namespace Sys2Proof.Machine

/-- A piece of source text. -/
abbrev Text := List Char

/-- What symbols stand for (R71): `EQU` values and label addresses, the first entry of a name counting. -/
abbrev Symbols := List (Text × Nat)

/-! ### Numbers (R72) -/

/-- The value of one digit; hexadecimal digits above 9 are the capitals the source writes. -/
def digitValue (c : Char) : Option Nat :=
  if '0' ≤ c ∧ c ≤ '9' then some (c.toNat - '0'.toNat)
  else if 'A' ≤ c ∧ c ≤ 'F' then some (c.toNat - 'A'.toNat + 10)
  else none

/-- The digits of a radix, most significant first, after the value `acc` read so far. -/
def readDigits (radix : Nat) : Text → Nat → Option Nat
  | [], acc => some acc
  | c :: cs, acc =>
    match digitValue c with
    | some v => if v < radix then readDigits radix cs (acc * radix + v) else none
    | none => none

/-- The digits between the quotes of `h'1B'`, `d'27'` and `b'00011011'`: at least one, and the closing quote. -/
def readQuoted (radix : Nat) (t : Text) : Option Nat :=
  if t.getLast? = some '\'' ∧ 2 ≤ t.length then readDigits radix t.dropLast 0 else none

/-- A number (R72). A bare number starts with a decimal digit and is hexadecimal ("the default radix is hexadecimal"). -/
def readNumber (t : Text) : Option Nat :=
  match t with
  | 'h' :: '\'' :: rest => readQuoted 16 rest
  | 'd' :: '\'' :: rest => readQuoted 10 rest
  | 'b' :: '\'' :: rest => readQuoted 2 rest
  | c :: _ => if '0' ≤ c ∧ c ≤ '9' then readDigits 16 t 0 else none
  | [] => none

/-! ### Operands (R71, R74, R75) -/

/-- What a name stands for. -/
def findSymbol : Symbols → Text → Option Nat
  | [], _ => none
  | (n, v) :: rest, t => if n = t then some v else findSymbol rest t

/-- The value of an operand: a number or a symbol, whatever kind of operand it is and whether an EQU or a label bound the
symbol. R71 shows EQU names as f operands and literals and labels as targets; the rest is a DESIGN CHOICE (log 29). -/
def operandValue (syms : Symbols) (t : Text) : Option Nat :=
  match readNumber t with
  | some v => some v
  | none => findSymbol syms t

/-- A file operand. Of an 8-bit effective address the low 7 bits are kept (R75). -/
def fileField (syms : Symbols) (t : Text) : Option FAddr :=
  match operandValue syms t with
  | some v => if v < 256 then some (BitVec.ofNat 7 v) else none
  | none => none

/-- A destination: `0` or `W`, `1` or `F` (R71). -/
def destField (t : Text) : Option Dest :=
  if t = ['0'] ∨ t = ['W'] then some .w
  else if t = ['1'] ∨ t = ['F'] then some .f
  else none

/-- A bit position, 0 to 7. That a symbol may stand here is a DESIGN CHOICE: R71 lets an EQU name stand as an f operand
(log 29). -/
def bitField (syms : Symbols) (t : Text) : Option (BitVec 3) :=
  match operandValue syms t with
  | some v => if v < 8 then some (BitVec.ofNat 3 v) else none
  | none => none

/-- An 8-bit literal, a number or a symbol (`RETLW K1`). -/
def literalField (syms : Symbols) (t : Text) : Option Byte :=
  match operandValue syms t with
  | some v => if v < 256 then some (BitVec.ofNat 8 v) else none
  | none => none

/-- The operand of CALL and GOTO: a program address, encoded mod 2048 (R65, R75). R71 shows labels; that a number or an
EQU name may stand here is a DESIGN CHOICE (log 29). -/
def targetField (syms : Symbols) (t : Text) : Option (BitVec 11) :=
  match operandValue syms t with
  | some v => if v < 8192 then some (assembleTarget (BitVec.ofNat 13 v)) else none
  | none => none

/-! ### Instructions -/

/-- The operand forms of R71. -/
inductive OperandForm where
  | none (i : Instr)
  | file (i : FAddr → Instr)
  | fileDest (i : FAddr → Dest → Instr)
  | fileBit (i : FAddr → BitVec 3 → Instr)
  | literal (i : Byte → Instr)
  | target (i : BitVec 11 → Instr)

/-- The mnemonics of R2 and R73 with their operand forms: literal, control, CALL and GOTO. -/
def controlMnemonics : List (Text × OperandForm) :=
  [ (['A', 'D', 'D', 'L', 'W'], .literal .addlw), (['A', 'N', 'D', 'L', 'W'], .literal .andlw),
    (['C', 'A', 'L', 'L'], .target .call), (['C', 'L', 'R', 'W', 'D', 'T'], .none .clrwdt),
    (['G', 'O', 'T', 'O'], .target .goto), (['I', 'O', 'R', 'L', 'W'], .literal .iorlw),
    (['M', 'O', 'V', 'L', 'W'], .literal .movlw), (['O', 'P', 'T', 'I', 'O', 'N'], .none .option),
    (['R', 'E', 'T', 'F', 'I', 'E'], .none .retfie), (['R', 'E', 'T', 'L', 'W'], .literal .retlw),
    (['R', 'E', 'T', 'U', 'R', 'N'], .none .ret), (['S', 'L', 'E', 'E', 'P'], .none .sleep),
    (['S', 'U', 'B', 'L', 'W'], .literal .sublw), (['X', 'O', 'R', 'L', 'W'], .literal .xorlw) ]

/-- The byte-oriented and bit-oriented mnemonics, and the pseudo-instruction MOVFW (R73). -/
def fileMnemonics : List (Text × OperandForm) :=
  [ (['A', 'D', 'D', 'W', 'F'], .fileDest .addwf), (['A', 'N', 'D', 'W', 'F'], .fileDest .andwf),
    (['B', 'C', 'F'], .fileBit .bcf), (['B', 'S', 'F'], .fileBit .bsf),
    (['B', 'T', 'F', 'S', 'C'], .fileBit .btfsc), (['B', 'T', 'F', 'S', 'S'], .fileBit .btfss),
    (['C', 'L', 'R', 'F'], .file .clrf), (['C', 'L', 'R', 'W'], .none .clrw),
    (['C', 'O', 'M', 'F'], .fileDest .comf), (['D', 'E', 'C', 'F'], .fileDest .decf),
    (['D', 'E', 'C', 'F', 'S', 'Z'], .fileDest .decfsz), (['I', 'N', 'C', 'F'], .fileDest .incf),
    (['I', 'N', 'C', 'F', 'S', 'Z'], .fileDest .incfsz), (['I', 'O', 'R', 'W', 'F'], .fileDest .iorwf),
    (['M', 'O', 'V', 'F'], .fileDest .movf), (['M', 'O', 'V', 'F', 'W'], .file Instr.movfw),
    (['M', 'O', 'V', 'W', 'F'], .file .movwf), (['N', 'O', 'P'], .none .nop),
    (['R', 'L', 'F'], .fileDest .rlf), (['R', 'R', 'F'], .fileDest .rrf),
    (['S', 'U', 'B', 'W', 'F'], .fileDest .subwf), (['S', 'W', 'A', 'P', 'F'], .fileDest .swapf),
    (['X', 'O', 'R', 'W', 'F'], .fileDest .xorwf) ]

/-- The form of the mnemonic `t` in a list of mnemonics. -/
def findMnemonic : List (Text × OperandForm) → Text → Option OperandForm
  | [], _ => none
  | (n, m) :: rest, t => if n = t then some m else findMnemonic rest t

/-- The form of a mnemonic; `none` where the word is none. -/
def mnemonicForm (t : Text) : Option OperandForm := findMnemonic (controlMnemonics ++ fileMnemonics) t

/-- The instruction of a mnemonic with its operands. A destination left out is F (R74). -/
def assembleOperands (syms : Symbols) (form : OperandForm) (operands : List Text) : Option Instr :=
  match form, operands with
  | .none i, [] => some i
  | .file i, [f] => (fileField syms f).map i
  | .fileDest i, [f] => (fileField syms f).map fun a => i a Dest.omitted
  | .fileDest i, [f, d] =>
    match fileField syms f, destField d with
    | some a, some x => some (i a x)
    | _, _ => none
  | .fileBit i, [f, b] =>
    match fileField syms f, bitField syms b with
    | some a, some x => some (i a x)
    | _, _ => none
  | .literal i, [k] => (literalField syms k).map i
  | .target i, [k] => (targetField syms k).map i
  | _, _ => none

/-! ### Lines and programs (R71) -/

/-- A line of source. -/
inductive SourceLine where
  | blank
  | equ (name : Text) (value : Nat)
  | instr (label : Option Text) (form : OperandForm) (operands : List Text)

/-- Text cut at every character `p` picks out. -/
def splitAt (p : Char → Bool) : Text → List Text
  | [] => [[]]
  | c :: cs =>
    match splitAt p cs with
    | [] => [[c]]
    | w :: ws => if p c then [] :: w :: ws else (c :: w) :: ws

/-- The words of a line up to its comment: `;` runs to the end of the line. -/
def lineWords (t : Text) : List Text :=
  (splitAt (fun c => c == ' ' || c == '\t') (t.takeWhile fun c => c != ';')).filter fun w => w != []

/-- The operands of an instruction: the words after its mnemonic, joined and cut at commas. So blanks around a comma, and
also inside an operand (`MOVLW 0 A8`), are dropped; R71 shows neither (DESIGN CHOICE, log 29). -/
def lineOperands (ws : List Text) : List Text :=
  match ws with
  | [] => []
  | _ => splitAt (fun c => c == ',') ws.flatten

/-- One line: blank, `symbol EQU value`, or an instruction with or without a label. -/
def parseLine (t : Text) : Option SourceLine :=
  match lineWords t with
  | [] => some .blank
  | first :: rest =>
    match mnemonicForm first with
    | some m => some (.instr none m (lineOperands rest))
    | none =>
      match rest with
      | [] => none
      | second :: rest =>
        if second = ['E', 'Q', 'U'] then
          match rest with
          | [v] => (readNumber v).map fun x => .equ first x
          | _ => none
        else (mnemonicForm second).map fun m => .instr (some first) m (lineOperands rest)

/-- The lines of a source text. -/
def parseLines : List Text → Option (List SourceLine)
  | [] => some []
  | t :: ts =>
    match parseLine t, parseLines ts with
    | some l, some ls => some (l :: ls)
    | _, _ => none

/-- The symbols of a program whose first instruction stands at `address`: a label "takes the program address of the
instruction on that line"; every instruction takes one word (R60). -/
def lineSymbols : Nat → List SourceLine → Symbols
  | _, [] => []
  | address, .blank :: ls => lineSymbols address ls
  | address, .equ n v :: ls => (n, v) :: lineSymbols address ls
  | address, .instr none _ _ :: ls => lineSymbols (address + 1) ls
  | address, .instr (some l) _ _ :: ls => (l, address) :: lineSymbols (address + 1) ls

/-- The name `PC`, used without an EQU: the file register h02 (R71, 10_state.md R19). -/
def predefinedSymbols : Symbols := [(['P', 'C'], 0x02)]

/-- The program words of a list of lines, from `address` on; a program ends at the top of program memory. -/
def assembleLines (syms : Symbols) : Nat → List SourceLine → Option Program
  | _, [] => some []
  | address, .blank :: ls => assembleLines syms address ls
  | address, .equ _ _ :: ls => assembleLines syms address ls
  | address, .instr _ form operands :: ls =>
    match assembleOperands syms form operands, assembleLines syms (address + 1) ls with
    | some i, some p => if address < 8192 then some ((address, encodeContainer i) :: p) else none
    | _, _ => none

/-- A source text assembled with its first instruction at `address`. The symbols of the whole text are collected first, so
a label, and also an EQU name, may be used on a line above the one that binds it. R71 says that an EQU name may "then" be
used; its use above the EQU is a DESIGN CHOICE (log 29). -/
def assemble (address : Nat) (source : List Text) : Option Program :=
  match parseLines source with
  | some ls => assembleLines (lineSymbols address ls ++ predefinedSymbols) address ls
  | none => none

end Sys2Proof.Machine
end

