-- ==== Sys2Proof/Machine/Timing.lean ====
section
/-! DEFINITION. Cycle counts (70_reset_and_hazards.md R180). Timing only: no operation of the machine reads them. -/

namespace Sys2Proof.Machine

/-- The location an instruction writes, if it writes the register file (20_memory.md R47); OPTION writes its register
without an address (R40). -/
def destination (i : Instr) (s : State) : Option Loc :=
  match i with
  | .movwf f => operand s f
  | .clrf f => operand s f
  | .bcf f _ => operand s f
  | .bsf f _ => operand s f
  | .subwf f .f => operand s f
  | .decf f .f => operand s f
  | .iorwf f .f => operand s f
  | .andwf f .f => operand s f
  | .xorwf f .f => operand s f
  | .addwf f .f => operand s f
  | .movf f .f => operand s f
  | .comf f .f => operand s f
  | .incf f .f => operand s f
  | .decfsz f .f => operand s f
  | .rrf f .f => operand s f
  | .rlf f .f => operand s f
  | .swapf f .f => operand s f
  | .incfsz f .f => operand s f
  | .option => some (.sfr .optionReg)
  | .subwf _ .w | .decf _ .w | .iorwf _ .w | .andwf _ .w | .xorwf _ .w | .addwf _ .w | .movf _ .w | .comf _ .w
  | .incf _ .w | .decfsz _ .w | .rrf _ .w | .rlf _ .w | .swapf _ .w | .incfsz _ .w => none
  | .nop | .ret | .retfie | .sleep | .clrwdt | .clrw | .btfsc _ _ | .btfss _ _ | .call _ | .goto _ | .movlw _
  | .retlw _ | .iorlw _ | .andlw _ | .xorlw _ | .sublw _ | .addlw _ => none

/-- DECFSZ, INCFSZ, BTFSC and BTFSS, the skip instructions (R89). -/
def isSkip : Instr → Bool
  | .decfsz _ _ | .incfsz _ _ | .btfsc _ _ | .btfss _ _ => true
  | _ => false

/-- The cycles of an instruction that took `s` to `t` (R180): 2 for CALL, GOTO and the returns; for a skip
instruction 2 when it skipped; 2 when the destination is the PC file register; else 1. -/
def cycles (i : Instr) (s t : State) : Nat :=
  match i with
  | .call _ | .goto _ | .retfie | .retlw _ | .ret => 2
  | _ =>
    if isSkip i then (if t.pc = s.pc + 2 then 2 else 1)
    else if destination i s = some (.sfr .pcl) then 2
    else 1

end Sys2Proof.Machine
end

