-- ==== Sys2Proof/WellFormed.lean ====
section
/-! DEFINITION. Well-formedness. Every value of every operand type is a legal operand (00_scope.md R6), so no
ill-formed `Instr` can be written; what can be ill-formed is a stored container and a part's parameters. -/

namespace Sys2Proof

/-- The container holds an instruction word that is defined (30_encoding.md R69, R70). -/
def wfContainer (c : Container) : Bool := (decodeContainer c).isSome

/-- PROG_WORDS lies in 1..8192 (00_scope.md R3). -/
def Part.wfProgWords (p : Part) : Bool := decide (1 ≤ p.progWords) && decide (p.progWords ≤ 8192)

/-- STACK_DEPTH is at least 1 (92_eei_decisions.md, open parameters). -/
def Part.wfStackDepth (p : Part) : Bool := decide (1 ≤ p.stackDepth)

/-- The three addresses the source fixes (10_state.md R30). -/
def Part.wfSourceAddresses (p : Part) : Bool :=
  Machine.classOf p 0x03 == .core .status && Machine.classOf p 0x05 == .peripheral .porta &&
    Machine.classOf p 0x0F == .gpr

/-- The addresses of the core registers (20_memory.md R49; 92_eei_decisions.md D10, D11, D14, D17, D22). -/
def coreAddresses : List (EAddr × RegClass) :=
  [ (0x00, .indf), (0x80, .indf), (0x02, .core .pcl), (0x82, .core .pcl), (0x03, .core .status),
    (0x83, .core .status), (0x04, .core .fsr), (0x84, .core .fsr), (0x0A, .core .pclath), (0x8A, .core .pclath),
    (0x0B, .core .intcon), (0x8B, .core .intcon), (0x81, .core .optionReg) ]

/-- The core registers stand at their addresses. -/
def Part.wfCoreAddresses (p : Part) : Bool := coreAddresses.all fun x => Machine.classOf p x.1 == x.2

/-- A mirror shows storage, not another mirror, INDF or nothing (so that R42 and R43 end). -/
def Part.wfMirrorAt (p : Part) (a : EAddr) : Bool :=
  match Machine.classOf p a with
  | .mirror target =>
    match Machine.classOf p target with
    | .mirror _ => false
    | .indf => false
    | .unimplemented => false
    | _ => true
  | _ => true

/-- Every mirror of the map shows storage. -/
def Part.wfMirrors (p : Part) : Bool := (List.range 256).all fun n => p.wfMirrorAt (BitVec.ofNat 8 n)

/-- The parameters are those of some machine of the family (00_scope.md R3, 10_state.md R30). -/
def Part.wf (p : Part) : Bool :=
  p.wfProgWords && p.wfStackDepth && p.wfSourceAddresses && p.wfCoreAddresses && p.wfMirrors

end Sys2Proof
end

