-- ==== Sys2Proof/Safety.lean ====
section
/-! DEFINITION. The terms in which claims speak: when an instruction completes, the invariant of a run, and the
spec's own tables (10_state.md R16, R33; 60_exceptions.md R165). -/

namespace Sys2Proof.Machine

/-- The file operand of an instruction that has one (40_byte_oriented.md R81, 41_bit_oriented.md R110). -/
def fileOperand : Instr → Option FAddr
  | .movwf f | .clrf f => some f
  | .subwf f _ | .decf f _ | .iorwf f _ | .andwf f _ | .xorwf f _ | .addwf f _ | .movf f _ | .comf f _ | .incf f _
  | .decfsz f _ | .rrf f _ | .rlf f _ | .swapf f _ | .incfsz f _ => some f
  | .bcf f _ | .bsf f _ | .btfsc f _ | .btfss f _ => some f
  | .nop | .ret | .retfie | .option | .sleep | .clrwdt | .clrw | .call _ | .goto _ | .movlw _ | .retlw _ | .iorlw _
  | .andlw _ | .xorlw _ | .sublw _ | .addlw _ => none

/-- RETURN, RETFIE and RETLW, which pop (10_state.md R21). -/
def isReturn : Instr → Bool
  | .ret | .retfie | .retlw _ => true
  | _ => false

/-- CALL, which pushes (10_state.md R21). -/
def isCall : Instr → Bool
  | .call _ => true
  | _ => false

/-- GOTO. -/
def isGoto : Instr → Bool
  | .goto _ => true
  | _ => false

/-- The flags C, DC, Z an instruction affects (10_state.md R16). -/
structure AffectedFlags where
  c  : Bool
  dc : Bool
  z  : Bool
  deriving DecidableEq, Repr

/-- The table of R16, its columns C, DC and Z. -/
def affectedFlags : Instr → AffectedFlags
  | .addlw _ | .addwf _ _ | .sublw _ | .subwf _ _ => ⟨true, true, true⟩
  | .andlw _ | .andwf _ _ | .iorlw _ | .iorwf _ _ | .xorlw _ | .xorwf _ _ | .clrf _ | .clrw | .comf _ _ | .decf _ _
  | .incf _ _ | .movf _ _ => ⟨false, false, true⟩
  | .rlf _ _ | .rrf _ _ => ⟨true, false, false⟩
  | .clrwdt | .sleep | .bcf _ _ | .bsf _ _ | .btfsc _ _ | .btfss _ _ | .call _ | .decfsz _ _ | .goto _ | .incfsz _ _
  | .movlw _ | .movwf _ | .nop | .option | .retfie | .retlw _ | .ret | .swapf _ _ => ⟨false, false, false⟩

/-- The don't-care bits of an instruction's word (30_encoding.md R68). -/
def dontCareBits : Instr → IWord
  | .nop => 0x0060
  | .clrw => 0x007F
  | .movlw _ | .retlw _ => 0x0300
  | .sublw _ | .addlw _ => 0x0100
  | _ => 0

/-- The conditions under which an instruction has a next state: its file operand is implemented, a skip instruction
does not write PCL, CALL finds room on the stack and a return finds an entry (60_exceptions.md R165). -/
def Executable (i : Instr) (s : State) : Prop :=
  (∀ f, fileOperand i = some f → operand s f ≠ none) ∧
  ¬(isSkip i = true ∧ destination i s = some (.sfr .pcl)) ∧
  (isCall i = true → s.stack.length < s.part.stackDepth) ∧
  (isReturn i = true → s.stack ≠ [])

/-- The invariant of a run: both memories in canonical form, data memory lists only addresses DEVICE_MAP classes GPR
(R40), the stack within its depth (R21), and a sleeping core has TO = 1 and PD = 0 (R130). -/
structure State.Inv (s : State) : Prop where
  ram_wf : Memory.wf s.ram = true
  ram_gpr : ∀ c ∈ s.ram, c.1 < 256 ∧ classOf s.part (BitVec.ofNat 8 c.1) = .gpr
  prog_wf : Program.wf s.prog = true
  stack_depth : s.stack.length ≤ s.part.stackDepth
  asleep_to_pd : s.asleep = true → s.status.getLsbD bitTO = true ∧ s.status.getLsbD bitPD = false

/-- No reset and no watchdog time-out at the coming boundary (R155). -/
def State.NoReset (s : State) : Prop :=
  (s.part.extReset = true → s.nextBoundary.externalReset = none) ∧
  (s.part.wdte = true → s.nextBoundary.watchdog = none)

/-- The state just before resets, sleep, interrupt and fetch are looked at: the schedule one further, the flag bits the
environment sets are set, the enabled watchdog runs (R24, R151). -/
def State.sampled (s : State) : State :=
  s.dropInput.sample s.nextBoundary

/-- `irq_pending` as sampled at the coming boundary (R151). -/
def State.irqSampled (s : State) : Bool := irqPending s.nextBoundary.line s.sampled

/-- The coming step fetches and runs the instruction at pc: no reset, no time-out, awake, and no interrupt entry
(R152, R155). -/
def State.WillFetch (s : State) : Prop :=
  s.NoReset ∧ s.asleep = false ∧ takesEntry s.irqSampled s.nextBoundary.admitEntry s.sampled = false

/-- The state in which the coming step runs the instruction at pc. -/
def State.atFetch (s : State) : State := s.sampled.withWake s.wake.next

/-- `MemRead(a, 1)`: the byte at effective address `a`; `none` is the refusal of an Unimplemented address (R42). -/
def memRead (s : State) (a : EAddr) : Option Byte := (locate s a).map fun l => readLoc l s

/-- `MemWrite(a, 1, v)` by an instruction that affects the flags in `u`; `none` is the refusal of an Unimplemented
address (R43). -/
def memWrite (u : FlagUpdate) (s : State) (a : EAddr) (v : Byte) : Option State :=
  (locate s a).map fun l => writeLoc u l v s

/-- The words of R70 that encode no instruction, as numbers. -/
def UndefinedWord (n : Nat) : Prop :=
  (0x0001 ≤ n ∧ n ≤ 0x007F ∧ n ∉ [0x0008, 0x0009, 0x0020, 0x0040, 0x0060, 0x0062, 0x0063, 0x0064]) ∨
  (0x3B00 ≤ n ∧ n ≤ 0x3BFF)

/-- The instructions whose result goes to W (10_state.md R10, R33). -/
def writesW : Instr → Bool
  | .movlw _ | .retlw _ | .clrw | .addlw _ | .andlw _ | .iorlw _ | .sublw _ | .xorlw _ => true
  | .subwf _ .w | .decf _ .w | .iorwf _ .w | .andwf _ .w | .xorwf _ .w | .addwf _ .w | .movf _ .w | .comf _ .w
  | .incf _ .w | .decfsz _ .w | .rrf _ .w | .rlf _ .w | .swapf _ .w | .incfsz _ .w => true
  | .subwf _ .f | .decf _ .f | .iorwf _ .f | .andwf _ .f | .xorwf _ .f | .addwf _ .f | .movf _ .f | .comf _ .f
  | .incf _ .f | .decfsz _ .f | .rrf _ .f | .rlf _ .f | .swapf _ .f | .incfsz _ .f => false
  | .movwf _ | .clrf _ | .bcf _ _ | .bsf _ _ | .btfsc _ _ | .btfss _ _ | .nop | .ret | .retfie | .option | .sleep
  | .clrwdt | .call _ | .goto _ => false

/-- The instructions that read their file operand (20_memory.md R47): all that have one but CLRF and MOVWF. -/
def readsFile : Instr → Bool
  | .movwf _ | .clrf _ => false
  | i => (fileOperand i).isSome

/-- The claim that an instruction `f,d` completes for every operand that is implemented, with the result and the flags
the rule's formulas give for the operand's value m, W and C as natural numbers (R80, R81). -/
def CompletesFd (instr : FAddr → Dest → Instr) (result : Nat → Nat → Nat → Nat)
    (flags : Nat → Nat → Nat → FlagUpdate) : Prop :=
  ∀ (f : FAddr) (d : Dest) (s : State) (l : Loc), operand s f = some l →
    exec (instr f d) s = .next (storeResult d l
      (BitVec.ofNat 8 (result (readLoc l s).toNat s.w.toNat s.carry.toNat))
      (flags (readLoc l s).toNat s.w.toNat s.carry.toNat) (afterRead l s))

/-- The claim that a decrement or increment with skip completes for every operand that is implemented, unless it writes
PCL: no flag, and two words further instead of one where the result is 0 (R88, R89, R91). -/
def CompletesFdSkip (instr : FAddr → Dest → Instr) (result : Nat → Nat) : Prop :=
  ∀ (f : FAddr) (d : Dest) (s : State) (l : Loc), operand s f = some l → ¬(d = .f ∧ l = .sfr .pcl) →
    exec (instr f d) s = .next
      { storeResult d l (BitVec.ofNat 8 (result (readLoc l s).toNat)) noFlags (afterRead l s) with
        pc := BitVec.ofNat 13 ((s.pc.toNat + if result (readLoc l s).toNat = 0 then 2 else 1) % 8192) }

/-- The claim that a literal instruction completes in every state, with the result in W and the flags the rule's
formulas give for k and W; nothing but W, STATUS and pc changes (42_literal_control.md R120). -/
def CompletesLiteral (instr : Byte → Instr) (result : Nat → Nat → Nat) (flags : Nat → Nat → FlagUpdate) : Prop :=
  ∀ (k : Byte) (s : State),
    exec (instr k) s = .next { s with
      w := BitVec.ofNat 8 (result k.toNat s.w.toNat)
      status := applyFlags (flags k.toNat s.w.toNat) s.status
      pc := BitVec.ofNat 13 ((s.pc.toNat + 1) % 8192) }

/-- The claim that an instruction's word is the number `n` (30_encoding.md R75). -/
def EncodesAs (i : Instr) (n : Nat) : Prop := (encode i).toNat = n

/-- The d bit of a destination as a number (R61). -/
def dBit : Dest → Nat
  | .w => 0
  | .f => 1

end Sys2Proof.Machine
end

