-- ==== Sys2Proof/Certificates/Slice0/Obligations.lean ====
section
/-! DEFINITION. The statements for the provers. Rules are cited by file and number in OBLIGATIONS.json. -/

open Sys2Proof Sys2Proof.Machine

/-! ### Encoding (30_encoding.md) -/

/-- Every instruction, with every operand, is read back from its word and from its container (R66, R69, R75). -/
def Obligations.DecodeOfEncodeIsIdentity : Prop :=
  ∀ i : Instr, decode (encode i) = some i ∧ decodeContainer (encodeContainer i) = some i

/-- R75, R61 to R64: the word of every instruction in numbers: the `match` value of its row and its fields in their
places; a CALL or GOTO to an address is assembled with the address mod 2048. -/
def Obligations.WordsInNumbers : Prop :=
  (∀ address : PAddr, (assembleTarget address).toNat = address.toNat % 2048) ∧
  ∀ (f : FAddr) (d : Dest) (b : BitVec 3) (k : Byte) (j : BitVec 11),
    (EncodesAs .nop 0x0000 ∧ EncodesAs .ret 0x0008 ∧ EncodesAs .retfie 0x0009 ∧ EncodesAs .option 0x0062 ∧
      EncodesAs .sleep 0x0063 ∧ EncodesAs .clrwdt 0x0064 ∧ EncodesAs .clrw 0x0100) ∧
    (EncodesAs (.movwf f) (0x0080 + f.toNat) ∧ EncodesAs (.clrf f) (0x0180 + f.toNat)) ∧
    (EncodesAs (.subwf f d) (0x0200 + 128 * dBit d + f.toNat) ∧ EncodesAs (.decf f d) (0x0300 + 128 * dBit d + f.toNat) ∧
      EncodesAs (.iorwf f d) (0x0400 + 128 * dBit d + f.toNat) ∧ EncodesAs (.andwf f d) (0x0500 + 128 * dBit d + f.toNat) ∧
      EncodesAs (.xorwf f d) (0x0600 + 128 * dBit d + f.toNat) ∧ EncodesAs (.addwf f d) (0x0700 + 128 * dBit d + f.toNat) ∧
      EncodesAs (.movf f d) (0x0800 + 128 * dBit d + f.toNat) ∧ EncodesAs (.comf f d) (0x0900 + 128 * dBit d + f.toNat) ∧
      EncodesAs (.incf f d) (0x0A00 + 128 * dBit d + f.toNat) ∧ EncodesAs (.decfsz f d) (0x0B00 + 128 * dBit d + f.toNat) ∧
      EncodesAs (.rrf f d) (0x0C00 + 128 * dBit d + f.toNat) ∧ EncodesAs (.rlf f d) (0x0D00 + 128 * dBit d + f.toNat) ∧
      EncodesAs (.swapf f d) (0x0E00 + 128 * dBit d + f.toNat) ∧
      EncodesAs (.incfsz f d) (0x0F00 + 128 * dBit d + f.toNat)) ∧
    (EncodesAs (.bcf f b) (0x1000 + 128 * b.toNat + f.toNat) ∧ EncodesAs (.bsf f b) (0x1400 + 128 * b.toNat + f.toNat) ∧
      EncodesAs (.btfsc f b) (0x1800 + 128 * b.toNat + f.toNat) ∧
      EncodesAs (.btfss f b) (0x1C00 + 128 * b.toNat + f.toNat)) ∧
    (EncodesAs (.call j) (0x2000 + j.toNat) ∧ EncodesAs (.goto j) (0x2800 + j.toNat)) ∧
    (EncodesAs (.movlw k) (0x3000 + k.toNat) ∧ EncodesAs (.retlw k) (0x3400 + k.toNat) ∧
      EncodesAs (.iorlw k) (0x3800 + k.toNat) ∧ EncodesAs (.andlw k) (0x3900 + k.toNat) ∧
      EncodesAs (.xorlw k) (0x3A00 + k.toNat) ∧ EncodesAs (.sublw k) (0x3C00 + k.toNat) ∧
      EncodesAs (.addlw k) (0x3E00 + k.toNat))

/-- R66: a word encodes an instruction of a row exactly if `(w AND mask) = match`. -/
def Obligations.DecodeFollowsOpcodeTable : Prop :=
  ∀ (w : IWord) (i : Instr),
    (opcodeRow i).matches w = true ↔ ∃ j, decode w = some j ∧ opcodeRow j = opcodeRow i

/-- R68: the don't-care bits take no part in decoding, every other bit does, and the canonical words have 0 there. -/
def Obligations.DontCareBitsTakeNoPartInDecoding : Prop :=
  ∀ (w : IWord) (i : Instr), decode w = some i ↔ w &&& ~~~dontCareBits i = encode i

/-- R70: the words that encode nothing are those listed, and executing one is refused. -/
def Obligations.UndefinedWordsAreRefused : Prop :=
  ∀ w : IWord, (decode w = none ↔ UndefinedWord w.toNat) ∧
    (UndefinedWord w.toNat → ∀ s : State, s.WillFetch → s.pc.toNat < s.part.progWords →
      progGet s.prog s.pc.toNat = some (BitVec.ofNat 16 w.toNat) → step s = .refused .undefinedOpcode)

/-- R69: only containers with bits 15:14 zero hold a word. -/
def Obligations.ContainerAbove14BitsIsNoWord : Prop :=
  ∀ c : Container,
    (c.toNat < 2 ^ 14 → decodeContainer c = decode (BitVec.ofNat 14 c.toNat)) ∧
    (2 ^ 14 ≤ c.toNat → decodeContainer c = none)

/-- Words written out from the bit patterns of R66. -/
def Obligations.SampleWordsDecode : Prop :=
  decode 0b00_0111_0_0100000 = some (.addwf 0x20 .w) ∧ decode 0b00_0010_1_0001111 = some (.subwf 0x0F .f) ∧
  decode 0b01_01_111_0000101 = some (.bsf 5 7) ∧ decode 0b01_10_000_0000011 = some (.btfsc 3 0) ∧
  decode 0b10_0_00000010000 = some (.call 0x10) ∧ decode 0b11_1010_10101111 = some (.xorlw 0xAF) ∧
  decode 0b00_0000_0000_1001 = some .retfie

/-- R71, R75: a source text assembles to words in canonical form, all of which decode, none below the start address and
none above the top of program memory. -/
def Obligations.AssembledProgramDecodes : Prop :=
  ∀ (address : Nat) (source : List Text) (p : Program), assemble address source = some p →
    Program.wf p = true ∧ ∀ c ∈ p, address ≤ c.1 ∧ c.1 < 8192 ∧ ∃ i, decodeContainer c.2 = some i ∧ encodeContainer i = c.2

/-- R73, R74: the mnemonic MOVFW with an operand is assembled as MOVF with that operand and destination 0, the mnemonic
MOVF has destinations, and for every `f,d` form an omitted destination is destination 1. -/
def Obligations.MovfwAndOmittedDestination : Prop :=
  (∃ movfw, mnemonicForm ['M', 'O', 'V', 'F', 'W'] = some movfw ∧ ∀ (syms : Symbols) (f : Text),
    assembleOperands syms movfw [f] = assembleOperands syms (.fileDest .movf) [f, ['0']] ∧
    assembleOperands syms movfw [f] = (fileField syms f).map fun a => .movf a .w) ∧
  mnemonicForm ['M', 'O', 'V', 'F'] = some (.fileDest .movf) ∧
  ∀ (syms : Symbols) (f : Text) (i : FAddr → Dest → Instr),
    assembleOperands syms (.fileDest i) [f] = assembleOperands syms (.fileDest i) [f, ['1']] ∧
    assembleOperands syms (.fileDest i) [f] = (fileField syms f).map fun a => i a .f

/-! ### A step -/

/-- A step runs the decoded instruction: it is `exec` of it in the state at the fetch (R41, R69, R152). -/
def Obligations.StepRunsTheDecodedInstruction : Prop :=
  ∀ (s : State) (c : Container) (i : Instr), s.WillFetch → s.pc.toNat < s.part.progWords →
    progGet s.prog s.pc.toNat = some c → decodeContainer c = some i → step s = exec i s.atFetch

/-- R41: a fetch at an address at or above PROG_WORDS is refused; a fetch where no word was ever stored is refused by
another name (the model's choice, log 11). -/
def Obligations.FetchOutsideProgramIsRefused : Prop :=
  ∀ s : State, s.WillFetch →
    (s.part.progWords ≤ s.pc.toNat → step s = .refused .fetchOutsideProgram) ∧
    (s.pc.toNat < s.part.progWords → progGet s.prog s.pc.toNat = none → step s = .refused .unprogrammedWord)

/-- R52: no step writes program memory, and none changes a parameter of the part. -/
def Obligations.StepKeepsProgramAndPart : Prop :=
  ∀ s t : State, step s = .next t → t.prog = s.prog ∧ t.part = s.part

/-- The canonical form of both memories, data memory within DEVICE_MAP's GPR, the stack within its depth and the TO and
PD of a sleeping core: every step keeps them, from every state. -/
def Obligations.StepKeepsInvariant : Prop := ∀ s t : State, s.Inv → step s = .next t → t.Inv

/-- The reset state satisfies the invariant. -/
def Obligations.ResetSatisfiesInvariant : Prop := State.reset.Inv

/-- R165: every refusal and every fault of a step is one of those listed (with this model's `unprogrammedWord` and
`stuckAsleep`, log 11 and log 21), and no instruction is left without a meaning. -/
def Obligations.StepStopsOnlyAsListed : Prop :=
  ∀ s : State,
    (∀ r, step s = .refused r → s.asleep = false ∧ r ∈ [Refusal.undefinedOpcode, .fetchOutsideProgram,
      .unprogrammedWord, .unimplementedFile, .undefinedCombination]) ∧
    (∀ r, step s = .fault r →
      (r = .stackOverflow ∧ s.part.stackDepth ≤ s.stack.length) ∨ (r = .stackUnderflow ∧ s.stack = []) ∨
      (r = .stuckAsleep ∧ s.asleep = true ∧ s.env = []))

/-- Every one of the 36 instructions has a next state exactly where its file operand is implemented, it is no skip
that writes PCL, and the stack has room for a CALL or an entry for a return (R81, R165). That a skip writes PCL also where
INDF or a mirror leads to it is the model's reading of R19 (DEDUCED, log 14). -/
def Obligations.ExecCompletesExactlyWhenExecutable : Prop :=
  ∀ (i : Instr) (s : State), (∃ t, exec i s = .next t) ↔ Executable i s

/-- R81: an instruction whose file operand is Unimplemented is refused by that name. -/
def Obligations.UnimplementedFileIsRefused : Prop :=
  ∀ (i : Instr) (f : FAddr) (s : State), fileOperand i = some f → operand s f = none →
    exec i s = .refused .unimplementedFile

/-! ### Byte-oriented instructions (40_byte_oriented.md) -/

/-- R82, R100: ADDWF and SUBWF complete with these results and flags for every implemented operand. -/
def Obligations.AddwfAndSubwfComplete : Prop :=
  CompletesFd .addwf (fun m w _ => (m + w) % 256)
    (fun m w _ => ⟨some (decide (m + w > 255)), some (decide (m % 16 + w % 16 > 15)),
      some (decide ((m + w) % 256 = 0))⟩) ∧
  CompletesFd .subwf (fun m w _ => (m + (255 - w) + 1) % 256)
    (fun m w _ => ⟨some (decide (m + (255 - w) + 1 > 255)), some (decide (m % 16 + (15 - w % 16) + 1 > 15)),
      some (decide ((m + (255 - w) + 1) % 256 = 0))⟩)

/-- R83, R86, R93, R102: ANDWF, COMF, IORWF and XORWF complete, and affect Z alone. -/
def Obligations.LogicInstructionsComplete : Prop :=
  CompletesFd .andwf (fun m w _ => m &&& w) (fun m w _ => ⟨none, none, some (decide (m &&& w = 0))⟩) ∧
  CompletesFd .comf (fun m _ _ => 255 - m) (fun m _ _ => ⟨none, none, some (decide (255 - m = 0))⟩) ∧
  CompletesFd .iorwf (fun m w _ => m ||| w) (fun m w _ => ⟨none, none, some (decide (m ||| w = 0))⟩) ∧
  CompletesFd .xorwf (fun m w _ => m ^^^ w) (fun m w _ => ⟨none, none, some (decide (m ^^^ w = 0))⟩)

/-- R87, R90, R94: DECF, INCF and MOVF complete, wrap at 256, and affect Z alone. -/
def Obligations.DecfIncfMovfComplete : Prop :=
  CompletesFd .decf (fun m _ _ => (m + 255) % 256) (fun m _ _ => ⟨none, none, some (decide ((m + 255) % 256 = 0))⟩) ∧
  CompletesFd .incf (fun m _ _ => (m + 1) % 256) (fun m _ _ => ⟨none, none, some (decide ((m + 1) % 256 = 0))⟩) ∧
  CompletesFd .movf (fun m _ _ => m) (fun m _ _ => ⟨none, none, some (decide (m = 0))⟩)

/-- R98, R99, R101: RLF and RRF rotate through C and affect C alone; SWAPF exchanges the nibbles, no flag. -/
def Obligations.RotatesAndSwapComplete : Prop :=
  CompletesFd .rlf (fun m _ c => (2 * m + c) % 256) (fun m _ _ => ⟨some (decide (m / 128 = 1)), none, none⟩) ∧
  CompletesFd .rrf (fun m _ c => 128 * c + m / 2) (fun m _ _ => ⟨some (decide (m % 2 = 1)), none, none⟩) ∧
  CompletesFd .swapf (fun m _ _ => 16 * (m % 16) + m / 16) (fun _ _ _ => ⟨none, none, none⟩)

/-- R88, R91: DECFSZ and INCFSZ complete unless they write PCL (also through INDF or a mirror, log 14); they go one word further, two if the result is 0; no
flag. -/
def Obligations.DecfszAndIncfszComplete : Prop :=
  CompletesFdSkip .decfsz (fun m => (m + 255) % 256) ∧ CompletesFdSkip .incfsz (fun m => (m + 1) % 256)

/-- R84, R95: CLRF and MOVWF complete for every implemented operand; they do not read it (R47). -/
def Obligations.ClrfAndMovwfComplete : Prop :=
  ∀ (f : FAddr) (s : State) (l : Loc), operand s f = some l →
    exec (.clrf f) s = .next (storeResult .f l 0x00 ⟨none, none, some true⟩ s) ∧
    exec (.movwf f) s = .next (storeResult .f l s.w ⟨none, none, none⟩ s)

/-- R85, R96, R125, R126: CLRW, NOP, MOVLW and OPTION complete in every state and change nothing else. -/
def Obligations.ClrwNopMovlwOptionComplete : Prop :=
  ∀ (k : Byte) (s : State),
    exec .clrw s = .next { s with
      w := 0, status := s.status ||| 0x04, pc := BitVec.ofNat 13 ((s.pc.toNat + 1) % 8192) } ∧
    exec .nop s = .next { s with pc := BitVec.ofNat 13 ((s.pc.toNat + 1) % 8192) } ∧
    exec (.movlw k) s = .next { s with w := k, pc := BitVec.ofNat 13 ((s.pc.toNat + 1) % 8192) } ∧
    exec .option s = .next { s with optionReg := s.w, pc := BitVec.ofNat 13 ((s.pc.toNat + 1) % 8192) }

/-! ### Where a result goes (40_byte_oriented.md R80, 20_memory.md R42, R43, 10_state.md R19, R31) -/

/-- R42: what a read of each class of address returns, in a machine whose map is well formed. -/
def Obligations.ReadByClassOfAddress : Prop :=
  ∀ (s : State) (a : EAddr), s.part.wf = true →
    (classOf s.part a = .gpr → memRead s a = some (ramGet s.ram a.toNat)) ∧
    (∀ target, classOf s.part a = .mirror target → memRead s a = memRead s target) ∧
    (classOf s.part a = .core .status → memRead s a = some s.status) ∧
    (classOf s.part a = .core .pcl → memRead s a = some (BitVec.ofNat 8 ((s.pc.toNat + 1) % 8192 % 256))) ∧
    (classOf s.part a = .core .pclath → memRead s a = some (BitVec.ofNat 8 s.pclath.toNat)) ∧
    (classOf s.part a = .core .fsr → memRead s a = some s.fsr) ∧
    (classOf s.part a = .core .intcon → memRead s a = some s.intcon) ∧
    (classOf s.part a = .core .optionReg → memRead s a = some s.optionReg) ∧
    (classOf s.part a = .indf →
      memRead s a = if classOf s.part s.fsr = .indf then some 0x00 else memRead s s.fsr) ∧
    (∀ n, classOf s.part a = .peripheral n → memRead s a = some (portValue s)) ∧
    (classOf s.part a = .unimplemented → memRead s a = none)

/-- R43: what a write to each class of address does, in a machine whose map is well formed. STATUS follows R31. -/
def Obligations.WriteByClassOfAddress : Prop :=
  ∀ (u : FlagUpdate) (s : State) (a : EAddr) (v : Byte), s.part.wf = true → Memory.wf s.ram = true →
    (classOf s.part a = .gpr → ∃ m, memWrite u s a v = some { s with ram := m } ∧
      ramGet m a.toNat = v ∧ ∀ n, n ≠ a.toNat → ramGet m n = ramGet s.ram n) ∧
    (∀ target, classOf s.part a = .mirror target → memWrite u s a v = memWrite u s target v) ∧
    (classOf s.part a = .core .status → ∃ x, memWrite u s a v = some { s with status := x } ∧
      (∀ j, 5 ≤ j → x.getLsbD j = v.getLsbD j) ∧ (∀ j, j = 3 ∨ j = 4 → x.getLsbD j = s.status.getLsbD j) ∧
      (∀ j, j < 3 → x.getLsbD j = if u = ⟨none, none, none⟩ then v.getLsbD j else s.status.getLsbD j)) ∧
    (classOf s.part a = .core .pcl →
      memWrite u s a v = some { s with pc := BitVec.ofNat 13 (256 * s.pclath.toNat + v.toNat) }) ∧
    (classOf s.part a = .core .pclath → memWrite u s a v = some { s with pclath := BitVec.ofNat 5 (v.toNat % 32) }) ∧
    (classOf s.part a = .core .fsr → memWrite u s a v = some { s with fsr := v }) ∧
    (classOf s.part a = .core .intcon → memWrite u s a v = some { s with intcon := v }) ∧
    (classOf s.part a = .core .optionReg → memWrite u s a v = some { s with optionReg := v }) ∧
    (classOf s.part a = .indf →
      memWrite u s a v = if classOf s.part s.fsr = .indf then some s else memWrite u s s.fsr v) ∧
    (∀ n, classOf s.part a = .peripheral n →
      memWrite u s a v = some { s with outputs := s.outputs ++ [⟨n, a, v⟩] }) ∧
    (classOf s.part a = .unimplemented → memWrite u s a v = none)

/-- R80, R43: with d = 0 the result goes to W and the file register keeps its value; with d = 1 it goes to the destination
and W and everything else keep theirs; the flags are written in both cases, pc goes one further. The destinations STATUS
and PCL, for which R31 and R19 say otherwise, are `StatusAsDestination` and `PclAsOperandAndDestination`. -/
def Obligations.ResultGoesToWOrToTheRegister : Prop :=
  ∀ (l : Loc) (v : Byte) (u : FlagUpdate) (s : State),
    let finished (t : State) : State :=
      { t with status := applyFlags u s.status, pc := BitVec.ofNat 13 ((s.pc.toNat + 1) % 8192) }
    storeResult .w l v u s = finished { s with w := v } ∧
    (∀ a, Memory.wf s.ram = true → ∃ m, storeResult .f (.ram a) v u s = finished { s with ram := m } ∧
      ramGet m a.toNat = v ∧ ∀ n, n ≠ a.toNat → ramGet m n = ramGet s.ram n) ∧
    storeResult .f (.sfr .fsr) v u s = finished { s with fsr := v } ∧
    storeResult .f (.sfr .pclath) v u s = finished { s with pclath := BitVec.ofNat 5 (v.toNat % 32) } ∧
    storeResult .f (.sfr .intcon) v u s = finished { s with intcon := v } ∧
    storeResult .f (.sfr .optionReg) v u s = finished { s with optionReg := v } ∧
    (∀ n a, storeResult .f (.port n a) v u s = finished { s with outputs := s.outputs ++ [⟨n, a, v⟩] }) ∧
    storeResult .f .null v u s = finished s

/-- R31: STATUS as a destination. Bits 7:5 take the value; TO and PD keep theirs; where the instruction affects no flag
C, DC and Z take the value, else an affected flag takes what the instruction computes and another keeps its value. -/
def Obligations.StatusAsDestination : Prop :=
  ∀ (v : Byte) (u : FlagUpdate) (s : State), ∃ x,
    storeResult .f (.sfr .status) v u s = { s with
      status := x, pc := BitVec.ofNat 13 ((s.pc.toNat + 1) % 8192) } ∧
    (∀ j, 5 ≤ j → x.getLsbD j = v.getLsbD j) ∧
    (∀ j, j = 3 ∨ j = 4 → x.getLsbD j = s.status.getLsbD j) ∧
    (u = ⟨none, none, none⟩ → ∀ j, j < 3 → x.getLsbD j = v.getLsbD j) ∧
    (u ≠ ⟨none, none, none⟩ →
      x.getLsbD 0 = u.c.getD (s.status.getLsbD 0) ∧ x.getLsbD 1 = u.dc.getD (s.status.getLsbD 1) ∧
      x.getLsbD 2 = u.z.getD (s.status.getLsbD 2))

/-- R19: PCL reads as the low byte of pc + 1; an instruction whose destination is PCL jumps to `PCLATH[4:0] : v` and
does not advance pc; DECFSZ and INCFSZ with PCL as destination are refused. R19 says so of f = PCL; that they are refused
too where the file operand reaches PCL through INDF or a mirror is the model's reading (DEDUCED, log 14). -/
def Obligations.PclAsOperandAndDestination : Prop :=
  ∀ (v : Byte) (u : FlagUpdate) (s : State),
    (readLoc (.sfr .pcl) s).toNat = (s.pc.toNat + 1) % 8192 % 256 ∧
    storeResult .f (.sfr .pcl) v u s = { s with
      status := applyFlags u s.status, pc := BitVec.ofNat 13 (256 * s.pclath.toNat + v.toNat) } ∧
    ∀ f, operand s f = some (.sfr .pcl) →
      exec (.decfsz f .f) s = .refused .undefinedCombination ∧ exec (.incfsz f .f) s = .refused .undefinedCombination

/-- The computed jump `ADDWF PC,1`: the 8-bit sum of W and the low byte of pc + 1, in the block PCLATH selects; the
carry reaches C and not pc bit 8 (R19, R82, R176). -/
def Obligations.ComputedJump : Prop :=
  ∀ s : State, s.part.wf = true → ∃ t, exec (.addwf 0x02 .f) s = .next t ∧
    t.pc.toNat = 256 * s.pclath.toNat + ((s.pc.toNat + 1) % 256 + s.w.toNat) % 256 ∧
    t.status.getLsbD 0 = decide ((s.pc.toNat + 1) % 256 + s.w.toNat > 255) ∧ t.w = s.w

/-- The effective address is `STATUS[5] : f`, and `BSF STATUS,5` and `BCF STATUS,5` switch the bank for the next
instruction (R11, R111, R112). -/
def Obligations.BankSelect : Prop :=
  ∀ (s : State) (f : FAddr),
    (ea s f).toNat = (if s.status.getLsbD 5 then 128 else 0) + f.toNat ∧
    (s.part.wf = true →
      (∃ t, exec (.bsf 0x03 5) s = .next t ∧ (ea t f).toNat = 128 + f.toNat) ∧
      (∃ t, exec (.bcf 0x03 5) s = .next t ∧ (ea t f).toNat = f.toNat))

/-- The core registers stand at their addresses, in both banks or in Bank 1 alone; h05 and h0F in Bank 0 are PORTA and
a general-purpose register (R49, R30). -/
def Obligations.CoreRegistersAtTheirAddresses : Prop :=
  ∀ s : State, s.part.wf = true →
    operand s 0x02 = some (.sfr .pcl) ∧ operand s 0x03 = some (.sfr .status) ∧ operand s 0x04 = some (.sfr .fsr) ∧
    operand s 0x0A = some (.sfr .pclath) ∧ operand s 0x0B = some (.sfr .intcon) ∧
    (s.status.getLsbD 5 = true → operand s 0x01 = some (.sfr .optionReg)) ∧
    (s.status.getLsbD 5 = false → operand s 0x05 = some (.port .porta 0x05) ∧ operand s 0x0F = some (.ram 0x0F))

/-- The reference instance of DEVICE_MAP is well formed and is the table of R30. -/
def Obligations.ReferenceMapIsTheTable : Prop :=
  referencePart.wf = true ∧
  ∀ a : EAddr, classOf referencePart a =
    if a.toNat % 128 = 0 then .indf
    else if a.toNat % 128 = 2 then .core .pcl
    else if a.toNat % 128 = 3 then .core .status
    else if a.toNat % 128 = 4 then .core .fsr
    else if a.toNat % 128 = 0x0A then .core .pclath
    else if a.toNat % 128 = 0x0B then .core .intcon
    else if a.toNat % 128 = 7 ∨ 0x50 ≤ a.toNat % 128 then .unimplemented
    else if 0x0C ≤ a.toNat % 128 then (if a.toNat < 128 then .gpr else .mirror (BitVec.ofNat 8 (a.toNat - 128)))
    else if a.toNat = 0x81 then .core .optionReg
    else if a.toNat = 0x01 then .peripheral .tmr0
    else if a.toNat = 0x05 then .peripheral .porta
    else if a.toNat = 0x06 then .peripheral .portb
    else if a.toNat = 0x08 then .peripheral .eedata
    else if a.toNat = 0x09 then .peripheral .eeadr
    else if a.toNat = 0x85 then .peripheral .trisa
    else if a.toNat = 0x86 then .peripheral .trisb
    else if a.toNat = 0x88 then .peripheral .eecon1
    else .peripheral .eecon2

/-- A peripheral register (R28, R47, R175): MOVWF is one output event and no read; BSF is one read and one output
event with the whole byte; neither changes any register. -/
def Obligations.PeripheralAccess : Prop :=
  ∀ (f : FAddr) (b : BitVec 3) (s : State) (n : Peripheral) (a : EAddr), operand s f = some (.port n a) →
    exec (.movwf f) s = .next { s with
      outputs := s.outputs ++ [⟨n, a, s.w⟩], pc := BitVec.ofNat 13 ((s.pc.toNat + 1) % 8192) } ∧
    exec (.bsf f b) s = .next { s with
      outputs := s.outputs ++ [⟨n, a, BitVec.ofNat 8 ((portValue s).toNat ||| 2 ^ b.toNat)⟩],
      portInputs := s.portInputs.tail,
      draws := s.draws + 1,
      pc := BitVec.ofNat 13 ((s.pc.toNat + 1) % 8192) }

/-! ### Bit-oriented instructions (41_bit_oriented.md) -/

/-- R111, R112: BCF and BSF complete for every implemented operand: the whole byte read, one bit changed, the whole
byte written; no flag as a side effect. -/
def Obligations.BcfAndBsfComplete : Prop :=
  ∀ (f : FAddr) (b : BitVec 3) (s : State) (l : Loc), operand s f = some l →
    exec (.bcf f b) s = .next (storeResult .f l
      (BitVec.ofNat 8 ((readLoc l s).toNat &&& (255 - 2 ^ b.toNat))) ⟨none, none, none⟩ (afterRead l s)) ∧
    exec (.bsf f b) s = .next (storeResult .f l
      (BitVec.ofNat 8 ((readLoc l s).toNat ||| 2 ^ b.toNat)) ⟨none, none, none⟩ (afterRead l s))

/-- R113, R114: BTFSC and BTFSS complete for every implemented operand, write nothing, and skip on the bit. -/
def Obligations.BtfscAndBtfssComplete : Prop :=
  ∀ (f : FAddr) (b : BitVec 3) (s : State) (l : Loc), operand s f = some l →
    exec (.btfsc f b) s = .next { afterRead l s with
      pc := BitVec.ofNat 13 ((s.pc.toNat + if (readLoc l s).toNat / 2 ^ b.toNat % 2 = 0 then 2 else 1) % 8192) } ∧
    exec (.btfss f b) s = .next { afterRead l s with
      pc := BitVec.ofNat 13 ((s.pc.toNat + if (readLoc l s).toNat / 2 ^ b.toNat % 2 = 1 then 2 else 1) % 8192) }

/-! ### Literal and control instructions (42_literal_control.md) -/

/-- R121, R131: ADDLW and SUBLW complete in every state. -/
def Obligations.AddlwAndSublwComplete : Prop :=
  CompletesLiteral .addlw (fun k w => (w + k) % 256)
    (fun k w => ⟨some (decide (w + k > 255)), some (decide (w % 16 + k % 16 > 15)),
      some (decide ((w + k) % 256 = 0))⟩) ∧
  CompletesLiteral .sublw (fun k w => (k + (255 - w) + 1) % 256)
    (fun k w => ⟨some (decide (k + (255 - w) + 1 > 255)), some (decide (k % 16 + (15 - w % 16) + 1 > 15)),
      some (decide ((k + (255 - w) + 1) % 256 = 0))⟩)

/-- R122, R124, R132: ANDLW, IORLW and XORLW complete in every state, and affect Z alone. -/
def Obligations.LiteralLogicCompletes : Prop :=
  CompletesLiteral .andlw (fun k w => w &&& k) (fun k w => ⟨none, none, some (decide (w &&& k = 0))⟩) ∧
  CompletesLiteral .iorlw (fun k w => w ||| k) (fun k w => ⟨none, none, some (decide (w ||| k = 0))⟩) ∧
  CompletesLiteral .xorlw (fun k w => w ^^^ k) (fun k w => ⟨none, none, some (decide (w ^^^ k = 0))⟩)

/-- After a subtraction C = 1 means no borrow, DC = 1 no borrow from the low nibble, Z = 1 equality, for SUBLW and for
SUBWF with any implemented operand and either destination (R14). -/
def Obligations.SubtractionFlagsCompare : Prop :=
  ∀ (s : State) (k : Byte) (f : FAddr) (d : Dest) (l : Loc), operand s f = some l →
    (∃ t, exec (.sublw k) s = .next t ∧ t.status.getLsbD 0 = decide (s.w.toNat ≤ k.toNat) ∧
      t.status.getLsbD 1 = decide (s.w.toNat % 16 ≤ k.toNat % 16) ∧ t.status.getLsbD 2 = decide (k = s.w)) ∧
    (∃ t, exec (.subwf f d) s = .next t ∧ t.status.getLsbD 0 = decide (s.w.toNat ≤ (readLoc l s).toNat) ∧
      t.status.getLsbD 1 = decide (s.w.toNat % 16 ≤ (readLoc l s).toNat % 16) ∧
      t.status.getLsbD 2 = decide (readLoc l s = s.w))

/-- R123, R130: CLRWDT and SLEEP complete in every state: the watchdog and its prescaler cleared, TO and PD written,
C, DC, Z and the bank bits kept; SLEEP leaves pc at the next address and the core asleep. -/
def Obligations.ClrwdtAndSleepComplete : Prop :=
  ∀ s : State,
    exec .clrwdt s = .next { s with
      wdt := .cleared, wdtPrescaler := .cleared, status := (s.status &&& 0xE7) ||| 0x18,
      pc := BitVec.ofNat 13 ((s.pc.toNat + 1) % 8192) } ∧
    exec .sleep s = .next { s with
      wdt := .cleared, wdtPrescaler := .cleared, status := (s.status &&& 0xE7) ||| 0x10, asleep := true,
      pc := BitVec.ofNat 13 ((s.pc.toNat + 1) % 8192) }

/-- R127, R128, R129: the returns complete where the stack has an entry, and load all 13 bits of it; RETLW loads W,
RETFIE sets GIE; on an empty stack each is the fault stackUnderflow. -/
def Obligations.ReturnsComplete : Prop :=
  ∀ (k : Byte) (s : State) (a : PAddr) (rest : List PAddr),
    (s.stack = a :: rest →
      exec .ret s = .next { s with pc := a, stack := rest } ∧
      exec (.retlw k) s = .next { s with pc := a, stack := rest, w := k } ∧
      exec .retfie s = .next { s with pc := a, stack := rest, intcon := s.intcon ||| 0x80 }) ∧
    (s.stack = [] →
      exec .ret s = .fault .stackUnderflow ∧ exec (.retlw k) s = .fault .stackUnderflow ∧
      exec .retfie s = .fault .stackUnderflow)

/-! ### CALL and GOTO (43_call_goto.md) -/

/-- R141, R142: CALL and GOTO go to `PCLATH[4:3] : k`; CALL pushes the next address, and on a full stack is the fault
stackOverflow. -/
def Obligations.CallAndGotoComplete : Prop :=
  ∀ (k : BitVec 11) (s : State),
    exec (.goto k) s = .next { s with pc := BitVec.ofNat 13 (2048 * (s.pclath.toNat / 8) + k.toNat) } ∧
    (s.stack.length < s.part.stackDepth →
      exec (.call k) s = .next { s with
        stack := BitVec.ofNat 13 ((s.pc.toNat + 1) % 8192) :: s.stack,
        pc := BitVec.ofNat 13 (2048 * (s.pclath.toNat / 8) + k.toNat) }) ∧
    (s.part.stackDepth ≤ s.stack.length → exec (.call k) s = .fault .stackOverflow)

/-- A subroutine that leaves the stack as it found it returns to the instruction after its CALL, whatever else it
changed (R141, R129). -/
def Obligations.ReturnGoesBackToTheCaller : Prop :=
  ∀ (k : BitVec 11) (s t u : State), exec (.call k) s = .next t → u.stack = t.stack →
    exec .ret u = .next { u with pc := BitVec.ofNat 13 ((s.pc.toNat + 1) % 8192), stack := s.stack }

/-! ### What an instruction leaves unchanged (10_state.md R10 to R24, R33) -/

/-- The frame of all 36 instructions: each piece of state is as before, unless it is what the instruction writes. -/
def Obligations.ExecChangesOnlyWhatItWrites : Prop :=
  ∀ (i : Instr) (s t : State), exec i s = .next t →
    (t.part = s.part ∧ t.prog = s.prog ∧ t.env = s.env ∧ t.wake = s.wake) ∧
    (writesW i = false → t.w = s.w) ∧
    (∀ n : Nat, (∀ a, destination i s = some (.ram a) → n ≠ a.toNat) → ramGet t.ram n = ramGet s.ram n) ∧
    (destination i s ≠ some (.sfr .pclath) → t.pclath = s.pclath) ∧
    (destination i s ≠ some (.sfr .fsr) → t.fsr = s.fsr) ∧
    (destination i s ≠ some (.sfr .optionReg) → t.optionReg = s.optionReg) ∧
    (destination i s ≠ some (.sfr .intcon) → i ≠ .retfie → t.intcon = s.intcon) ∧
    ((∀ n a, destination i s ≠ some (.port n a)) → t.outputs = s.outputs) ∧
    ((∀ f n a, fileOperand i = some f → readsFile i = true → operand s f ≠ some (.port n a)) →
      t.portInputs = s.portInputs ∧ t.draws = s.draws) ∧
    (isCall i = false → isReturn i = false → t.stack = s.stack) ∧
    (i ≠ .clrwdt → i ≠ .sleep → t.wdt = s.wdt ∧ t.wdtPrescaler = s.wdtPrescaler) ∧
    (i ≠ .sleep → t.asleep = s.asleep)

/-- STATUS where it is not the destination: a flag the table of R16 does not list for the instruction, the bank bit and
bits 7:6 are as before. -/
def Obligations.FlagsChangeOnlyAsListed : Prop :=
  ∀ (i : Instr) (s t : State), exec i s = .next t → destination i s ≠ some (.sfr .status) →
    ((affectedFlags i).c = false → t.status.getLsbD 0 = s.status.getLsbD 0) ∧
    ((affectedFlags i).dc = false → t.status.getLsbD 1 = s.status.getLsbD 1) ∧
    ((affectedFlags i).z = false → t.status.getLsbD 2 = s.status.getLsbD 2) ∧
    (∀ j, 5 ≤ j → t.status.getLsbD j = s.status.getLsbD j)

/-- R15: only CLRWDT and SLEEP write TO and PD, not even an instruction whose destination is STATUS; power-on sets
both; a watchdog time-out clears TO. -/
def Obligations.ToAndPdOnlyByClrwdtAndSleep : Prop :=
  (∀ (i : Instr) (s t : State), exec i s = .next t →
    (i = .clrwdt → t.status.getLsbD 4 = true ∧ t.status.getLsbD 3 = true) ∧
    (i = .sleep → t.status.getLsbD 4 = true ∧ t.status.getLsbD 3 = false) ∧
    (i ≠ .clrwdt → i ≠ .sleep →
      t.status.getLsbD 4 = s.status.getLsbD 4 ∧ t.status.getLsbD 3 = s.status.getLsbD 3)) ∧
  (∀ (p : Part) (g : Program) (v : PowerOnValues),
    (State.powerOn p g v).status.getLsbD 4 = true ∧ (State.powerOn p g v).status.getLsbD 3 = true) ∧
  (∀ (v : ResetValues) (s : State),
    (watchdogReset v s).status.getLsbD 4 = false ∧ (watchdogWake s).status.getLsbD 4 = false)

/-- Where pc goes after each kind of instruction (R18, R140). -/
def Obligations.PcAfterAnInstruction : Prop :=
  ∀ (i : Instr) (s t : State), exec i s = .next t →
    (isSkip i = false → isCall i = false → isGoto i = false → isReturn i = false →
      destination i s ≠ some (.sfr .pcl) → t.pc.toNat = (s.pc.toNat + 1) % 8192) ∧
    (isSkip i = true →
      t.pc.toNat = (s.pc.toNat + 1) % 8192 ∨ t.pc.toNat = (s.pc.toNat + 2) % 8192) ∧
    (∀ k, i = .call k ∨ i = .goto k → t.pc.toNat = 2048 * (s.pclath.toNat / 8) + k.toNat) ∧
    (isReturn i = true → s.stack = t.pc :: t.stack) ∧
    (destination i s = some (.sfr .pcl) → t.pc.toNat / 256 = s.pclath.toNat)

/-- R180: the cycles of an instruction that completes: 2 for CALL, GOTO, the returns, a taken skip and a write to PCL,
else 1. Timing is no part of the machine: no step reads them (log 24). -/
def Obligations.CycleCounts : Prop :=
  ∀ (i : Instr) (s t : State), exec i s = .next t →
    (isCall i = true ∨ isGoto i = true ∨ isReturn i = true → cycles i s t = 2) ∧
    (isSkip i = true → t.pc.toNat = (s.pc.toNat + 2) % 8192 → cycles i s t = 2) ∧
    (isSkip i = true → t.pc.toNat = (s.pc.toNat + 1) % 8192 → cycles i s t = 1) ∧
    (destination i s = some (.sfr .pcl) → cycles i s t = 2) ∧
    (isCall i = false → isGoto i = false → isReturn i = false → isSkip i = false →
      destination i s ≠ some (.sfr .pcl) → cycles i s t = 1)

/-! ### Interrupts, sleep, watchdog, resets (60_exceptions.md, 70_reset_and_hazards.md, 10_state.md R32) -/

/-- R153: interrupt entry clears GIE, pushes pc, goes to 0x0004 and changes nothing else of the core; on a full stack it
is the fault stackOverflow. (`wake` is the model's own field, log 22.) -/
def Obligations.InterruptEntryEffect : Prop :=
  ∀ s : State,
    (s.stack.length < s.part.stackDepth → interruptEntry s = .next { s with
      intcon := BitVec.ofNat 8 (s.intcon.toNat % 128), stack := s.pc :: s.stack, pc := 0x0004, wake := .idle }) ∧
    (s.part.stackDepth ≤ s.stack.length → interruptEntry s = .fault .stackOverflow)

/-- When an interrupt is taken (R152): awake, GIE and a request, where the environment admits the entry at this boundary,
the step is the entry; without one of these the step is the fetch. (No wake-up in progress.) -/
def Obligations.InterruptTakenAtTheBoundary : Prop :=
  ∀ s : State, s.NoReset → s.asleep = false → s.wake = .idle →
    (s.sampled.gie = true → s.irqSampled = true → s.nextBoundary.admitEntry = true →
      step s = interruptEntry s.sampled) ∧
    (s.sampled.gie = false ∨ s.irqSampled = false ∨ s.nextBoundary.admitEntry = false →
      step s = fetchExec s.sampled)

/-- On the reference device: the request is R151's formula, and the environment sets INTCON bits 2:0 and no other. -/
def Obligations.ReferenceInterruptRequest : Prop :=
  ∀ (line : Bool) (bits : Byte) (s : State), s.part.irqSources = referenceIrqSources →
    irqPending line s =
      ((s.intcon.getLsbD 5 && s.intcon.getLsbD 2) || (s.intcon.getLsbD 4 && s.intcon.getLsbD 1) ||
        (s.intcon.getLsbD 3 && s.intcon.getLsbD 0) || (s.intcon.getLsbD 6 && line)) ∧
    ∀ j, (s.raiseFlags bits).intcon.getLsbD j = (s.intcon.getLsbD j || (decide (j < 3) && bits.getLsbD j))

/-- RETFIE after interrupt entry, with the stack as the entry left it, goes back to the interrupted instruction with the
interrupted stack and GIE = 1, and restores nothing else (R127, R153, R156). -/
def Obligations.RetfieUndoesInterruptEntry : Prop :=
  ∀ s t u : State, interruptEntry s = .next t → u.stack = t.stack →
    exec .retfie u = .next { u with pc := s.pc, stack := s.stack, intcon := u.intcon ||| 0x80 }

/-- Wake-up by interrupt (R160): a request wakes the core whatever GIE is; the instruction at pc runs before any entry;
then, with GIE = 1, the interrupt is entered, and with GIE = 0 execution goes on. The phases held in `wake`, and that GIE
and the request are looked at at the boundary after that instruction, are the model's reading (DEDUCED, log 22): a request
still pending there is entered without leave of the environment, and one withdrawn meanwhile if the environment admits
the entry. -/
def Obligations.WakeUpByInterrupt : Prop :=
  ∀ s : State, s.NoReset →
    (s.asleep = true → s.irqSampled = true →
      step s = .next { s.sampled with asleep := false, wake := .instrFirst }) ∧
    (s.asleep = false → s.wake = .instrFirst → step s = fetchExec (s.sampled.withWake .entryDue)) ∧
    (s.asleep = false → s.wake = .entryDue →
      (s.sampled.gie = true → s.irqSampled = true → step s = interruptEntry s.sampled) ∧
      (s.sampled.gie = true → s.irqSampled = false → step s =
        if s.nextBoundary.admitEntry then interruptEntry s.sampled else fetchExec (s.sampled.withWake .idle)) ∧
      (s.sampled.gie = false → step s = fetchExec (s.sampled.withWake .idle)))

/-- R26, R160: unless it is reset, a sleeping core runs no instruction: pc, W, data memory, the registers, the stack, C,
DC, Z and the outputs are retained, whatever the step does. -/
def Obligations.SleepRetainsCoreState : Prop :=
  ∀ s t : State, s.asleep = true → (s.part.extReset = true → s.nextBoundary.externalReset = none) →
    step s = .next t →
      t.pc = s.pc ∧ t.w = s.w ∧ t.ram = s.ram ∧ t.pclath = s.pclath ∧ t.fsr = s.fsr ∧ t.optionReg = s.optionReg ∧
      t.stack = s.stack ∧ t.outputs = s.outputs ∧ t.draws = s.draws ∧
      ∀ j, j ≠ 3 → j ≠ 4 → t.status.getLsbD j = s.status.getLsbD j

/-- A sleeping core with no request pending and nothing scheduled is stuck, the model's reading of R8 (d) and U17
(log 21); a scheduled boundary that does not wake it leaves it asleep. -/
def Obligations.AsleepWithoutEventIsStuck : Prop :=
  ∀ s : State, s.NoReset → s.asleep = true → s.irqSampled = false →
    (s.env = [] → step s = .fault .stuckAsleep) ∧ (s.env ≠ [] → step s = .next s.sampled)

/-- R24, R159, R171: with WDTE a time-out while awake is a reset with TO = 0 and PD unchanged (R159, by D23; where PD was 0
the table of R171 has 1 and the model does not follow it, DEDUCED, log 19); while asleep it wakes the core with TO = 0, PD = 0 and
execution goes on at pc, the INTCON flag bits set at this boundary staying set (DESIGN CHOICE, log 25). Without WDTE it
does not happen. -/
def Obligations.WatchdogTimeOut : Prop :=
  ∀ (s : State) (v : ResetValues), (s.part.extReset = true → s.nextBoundary.externalReset = none) →
    s.nextBoundary.watchdog = some v →
    (s.part.wdte = true → s.asleep = false → ∃ t, step s = .next t ∧
      t.pc = 0x0000 ∧ t.stack = [] ∧ t.asleep = false ∧ t.w = s.w ∧ t.ram = s.ram ∧ t.pclath = 0 ∧
      t.optionReg = 0xFF ∧ t.status.getLsbD 4 = false ∧ t.status.getLsbD 3 = s.status.getLsbD 3 ∧
      (∀ j, 5 ≤ j → t.status.getLsbD j = false) ∧ t.intcon.toNat < 2) ∧
    (s.part.wdte = true → s.asleep = true →
      step s = .next { s.sampled with asleep := false, wake := .idle, status := s.status &&& 0xE7 }) ∧
    (s.part.wdte = false → s.asleep = false → s.irqSampled = false → s.wake = .idle →
      step s = fetchExec s.sampled)

/-- R24: when the watchdog and its prescaler are in the state "cleared" after a step. With WDTE: after an instruction
exactly if it was CLRWDT or SLEEP; after an interrupt entry, a wake-up or a boundary slept through not. After an external
reset, and after a watchdog reset, they are (R171). Without WDTE they stay so once they are. That the enabled watchdog runs
from the next boundary on, and the disabled one never, is the model's reading of R24 (DEDUCED, log 18). -/
def Obligations.WatchdogClearedJustAfterAClear : Prop :=
  ∀ s t : State, step s = .next t →
    (s.part.wdte = true → s.WillFetch → ∀ (c : Container) (i : Instr), s.pc.toNat < s.part.progWords →
      progGet s.prog s.pc.toNat = some c → decodeContainer c = some i →
      (t.wdt = .cleared ↔ i = .clrwdt ∨ i = .sleep) ∧ (t.wdtPrescaler = .cleared ↔ i = .clrwdt ∨ i = .sleep)) ∧
    (s.part.wdte = true → s.NoReset → ¬s.WillFetch → t.wdt = .running ∧ t.wdtPrescaler = .running) ∧
    (∀ v, s.part.extReset = true → s.nextBoundary.externalReset = some v → t.wdt = .cleared ∧ t.wdtPrescaler = .cleared) ∧
    (∀ v, s.part.wdte = true → (s.part.extReset = true → s.nextBoundary.externalReset = none) →
      s.nextBoundary.watchdog = some v →
      (s.asleep = false → t.wdt = .cleared ∧ t.wdtPrescaler = .cleared) ∧
      (s.asleep = true → t.wdt = .running ∧ t.wdtPrescaler = .running)) ∧
    (s.part.wdte = false → s.wdt = .cleared → s.wdtPrescaler = .cleared →
      t.wdt = .cleared ∧ t.wdtPrescaler = .cleared)

/-- R171, R155, R170: an external reset, where allowed, wins over everything else at the boundary. W and data memory
keep their values, the control registers take their reset values, TO and PD are unchanged while awake and 1 and 0
during sleep. -/
def Obligations.ExternalReset : Prop :=
  ∀ (s : State) (v : ResetValues), s.part.extReset = true → s.nextBoundary.externalReset = some v →
    ∃ t, step s = .next t ∧ t.pc = 0x0000 ∧ t.w = s.w ∧ t.ram = s.ram ∧ t.pclath = 0 ∧ t.optionReg = 0xFF ∧
      t.stack = [] ∧ t.asleep = false ∧ t.intcon.toNat < 2 ∧ (∀ j, 5 ≤ j → t.status.getLsbD j = false) ∧
      (s.asleep = false →
        t.status.getLsbD 4 = s.status.getLsbD 4 ∧ t.status.getLsbD 3 = s.status.getLsbD 3) ∧
      (s.asleep = true → t.status.getLsbD 4 = true ∧ t.status.getLsbD 3 = false)

/-- R32: the values after power-on reset, for every part, program and value of what R32 leaves unspecified. -/
def Obligations.PowerOnReset : Prop :=
  ∀ (p : Part) (g : Program) (v : PowerOnValues),
    let s := State.powerOn p g v
    s.pc = 0x0000 ∧ s.status.toNat = 0x18 + v.zdc.toNat ∧ s.pclath = 0 ∧ s.intcon.toNat = v.intcon0.toNat ∧
    s.optionReg = 0xFF ∧ s.stack = [] ∧ s.wdt = .cleared ∧ s.wdtPrescaler = .cleared ∧ s.asleep = false ∧
    s.w = v.w ∧ s.fsr = v.fsr ∧ s.ram = v.ram

/-- The values this model names where R32 gives none (DESIGN CHOICE, log 4 and log 5): W, FSR, C, DC, Z, INTCON bit 0
and every general-purpose register are 0 at reset. -/
def Obligations.ResetNamesZeroForUnspecified : Prop :=
  State.reset.w = 0 ∧ State.reset.fsr = 0 ∧ State.reset.status = 0x18 ∧ State.reset.intcon = 0 ∧
  ∀ n, ramGet State.reset.ram n = 0
end

