-- ==== Sys2Proof/Laws/Memory.lean ====
section
/-! SUPPORT. The laws of data memory and program memory. -/

namespace Sys2Proof.Machine

/-! ### Data memory -/

/-- A cell put in front is read back, unless it lists the unlisted value. -/
theorem ramGet_consCell (k : Nat) (v : Byte) (m : Memory) (j : Nat) :
    ramGet (consCell k v m) j = if v = unlistedByte then ramGet m j else if j = k then v else ramGet m j := by
  unfold consCell
  split <;> simp [ramGet]

/-- Canonical memory without its first cell is canonical, and its other addresses are above the first. -/
theorem Memory.wf_cons {a : Nat} {v : Byte} {m : Memory} (h : Memory.wf ((a, v) :: m) = true) :
    v ≠ unlistedByte ∧ Memory.wf m = true ∧ ∀ c ∈ m, a < c.1 := by
  induction m generalizing a v with
  | nil => simpa [Memory.wf] using h
  | cons c m ih =>
    obtain ⟨b, x⟩ := c
    simp only [Memory.wf, Bool.and_eq_true, bne_iff_ne, decide_eq_true_eq] at h
    obtain ⟨⟨hv, hab⟩, hm⟩ := h
    refine ⟨hv, hm, ?_⟩
    intro c hc
    rcases List.mem_cons.mp hc with rfl | hc
    · exact hab
    · exact lt_trans hab ((ih hm).2.2 c hc)

/-- A cell below all others, with a byte to list, keeps the form. -/
theorem Memory.wf_consCell {k : Nat} {v : Byte} {m : Memory} (hm : Memory.wf m = true) (hk : ∀ c ∈ m, k < c.1) :
    Memory.wf (consCell k v m) = true := by
  unfold consCell
  split
  · exact hm
  · next hv =>
    cases m with
    | nil => simpa [Memory.wf] using hv
    | cons c m =>
      obtain ⟨b, x⟩ := c
      have hkb : k < b := hk (b, x) (by simp)
      simp [Memory.wf, hv, hkb, hm]

/-- Reading an address below every listed one. -/
theorem ramGet_below {m : Memory} {k : Nat} (h : ∀ c ∈ m, k < c.1) : ramGet m k = unlistedByte := by
  induction m with
  | nil => rfl
  | cons c m ih =>
    obtain ⟨a, v⟩ := c
    have hka : k < a := h (a, v) (by simp)
    simp only [ramGet, if_neg (Nat.ne_of_lt hka)]
    exact ih fun c hc => h c (by simp [hc])

/-- A store leaves every other address as it was. -/
theorem ramGet_ramSet_other (m : Memory) (k : Nat) (v : Byte) {j : Nat} (h : j ≠ k) :
    ramGet (ramSet m k v) j = ramGet m j := by
  induction m with
  | nil => simp [ramSet, ramGet_consCell, h]
  | cons c m ih =>
    obtain ⟨a, x⟩ := c
    simp only [ramSet]
    split
    · simp [ramGet_consCell, h]
    · split
      · next ha => simp [ramGet_consCell, ramGet, h, ← ha]
      · simp only [ramGet, ih]

/-- In canonical memory a store is read back. -/
theorem ramGet_ramSet_same {m : Memory} (hm : Memory.wf m = true) (k : Nat) (v : Byte) :
    ramGet (ramSet m k v) k = v := by
  induction m with
  | nil => by_cases hv : v = unlistedByte <;> simp [ramSet, ramGet_consCell, ramGet, hv]
  | cons c m ih =>
    obtain ⟨a, x⟩ := c
    obtain ⟨-, hm', hlt⟩ := Memory.wf_cons hm
    simp only [ramSet]
    split
    · next hka =>
      have hb : ramGet ((a, x) :: m) k = unlistedByte :=
        ramGet_below fun c hc => by
          rcases List.mem_cons.mp hc with rfl | hc
          · exact hka
          · exact lt_trans hka (hlt c hc)
      by_cases hv : v = unlistedByte <;> simp [ramGet_consCell, hv, hb]
    · split
      · next ha =>
        have hb : ramGet m k = unlistedByte := ramGet_below fun c hc => ha ▸ hlt c hc
        by_cases hv : v = unlistedByte <;> simp [ramGet_consCell, hv, hb]
      · next ha => simp [ramGet, ha, ih hm']

/-- A cell after a store was there before or is the stored one. -/
theorem mem_ramSet {m : Memory} {k : Nat} {v : Byte} {c : Host.Cell} (h : c ∈ ramSet m k v) : c ∈ m ∨ c = (k, v) := by
  induction m with
  | nil =>
    simp only [ramSet, consCell] at h
    split at h <;> simp_all
  | cons d m ih =>
    obtain ⟨a, x⟩ := d
    simp only [ramSet, consCell] at h
    split at h
    · split at h
      · exact .inl h
      · rcases List.mem_cons.mp h with h | h
        · exact .inr h
        · exact .inl h
    · split at h
      · split at h
        · exact .inl (List.mem_cons_of_mem _ h)
        · rcases List.mem_cons.mp h with h | h
          · exact .inr h
          · exact .inl (List.mem_cons_of_mem _ h)
      · rcases List.mem_cons.mp h with h | h
        · exact .inl (h ▸ List.mem_cons_self)
        · exact (ih h).imp (List.mem_cons_of_mem _) id

/-- A store keeps the canonical form. -/
theorem ramSet_wf {m : Memory} (hm : Memory.wf m = true) (k : Nat) (v : Byte) : Memory.wf (ramSet m k v) = true := by
  induction m with
  | nil => exact Memory.wf_consCell rfl (by simp)
  | cons c m ih =>
    obtain ⟨a, x⟩ := c
    obtain ⟨hx, hm', hlt⟩ := Memory.wf_cons hm
    simp only [ramSet]
    split
    · next hka =>
      refine Memory.wf_consCell hm fun c hc => ?_
      rcases List.mem_cons.mp hc with rfl | hc
      · exact hka
      · exact lt_trans hka (hlt c hc)
    · split
      · next ha => exact Memory.wf_consCell hm' fun c hc => ha ▸ hlt c hc
      · next hka ha =>
        have h := Memory.wf_consCell (k := a) (v := x) (ih hm') fun c hc => by
          rcases mem_ramSet hc with hc | rfl
          · exact hlt c hc
          · simp only; omega
        simpa [consCell, hx] using h

/-- The reset state's data memory is in canonical form. -/
theorem reset_ram_wf : Memory.wf State.reset.ram = true := rfl

/-! ### Program memory -/

/-- A loaded container is fetched. -/
theorem progGet_progSet_same (m : Program) (k : Nat) (c : Container) : progGet (progSet m k c) k = some c := by
  induction m with
  | nil => simp [progSet, progGet]
  | cons d m ih =>
    obtain ⟨a, x⟩ := d
    simp only [progSet]
    split
    · simp [progGet]
    · split
      · simp [progGet]
      · next ha => simp [progGet, ha, ih]

/-- A load leaves every other address as it was. -/
theorem progGet_progSet_other (m : Program) (k : Nat) (c : Container) {j : Nat} (h : j ≠ k) :
    progGet (progSet m k c) j = progGet m j := by
  induction m with
  | nil => simp [progSet, progGet, h]
  | cons d m ih =>
    obtain ⟨a, x⟩ := d
    simp only [progSet]
    split
    · simp [progGet, h]
    · split
      · next ha => simp [progGet, h, ← ha]
      · simp only [progGet, ih]

/-- The least address of a program after a load. -/
theorem progSet_head (m : Program) (k : Nat) (c : Container) :
    ∃ b x m', progSet m k c = (b, x) :: m' ∧ (b = k ∨ ∃ y n, m = (b, y) :: n) := by
  cases m with
  | nil => exact ⟨k, c, [], rfl, .inl rfl⟩
  | cons d m =>
    obtain ⟨a, x⟩ := d
    simp only [progSet]
    split
    · exact ⟨k, c, _, rfl, .inl rfl⟩
    · split
      · exact ⟨k, c, _, rfl, .inl rfl⟩
      · exact ⟨a, x, _, rfl, .inr ⟨x, m, rfl⟩⟩

/-- A load keeps the canonical form. -/
theorem progSet_wf {m : Program} (hm : Program.wf m = true) (k : Nat) (c : Container) :
    Program.wf (progSet m k c) = true := by
  induction m with
  | nil => rfl
  | cons d m ih =>
    obtain ⟨a, x⟩ := d
    have htail : Program.wf m = true := by
      cases m with
      | nil => rfl
      | cons e m => exact (Bool.and_eq_true _ _ ▸ hm).2
    simp only [progSet]
    split
    · next hka => simp [Program.wf, hka, hm]
    · split
      · next ha =>
        subst ha
        cases m with
        | nil => rfl
        | cons e m => exact hm
      · next hka ha =>
        obtain ⟨b, y, m', hset, hb⟩ := progSet_head m k c
        have hab : a < b := by
          rcases hb with rfl | ⟨z, n, rfl⟩
          · omega
          · simp only [Program.wf, Bool.and_eq_true, decide_eq_true_eq] at hm
            exact hm.1
        have hwf := ih htail
        rw [hset] at hwf ⊢
        simp [Program.wf, hab, hwf]

/-- The reset state's program memory is in canonical form. -/
theorem reset_prog_wf : Program.wf State.reset.prog = true := rfl

end Sys2Proof.Machine
end

