-- ==== Sys2Proof/Laws/State.lean ====
section
/-! SUPPORT. What each state update leaves in each field, so that no proof unfolds a record update. -/

namespace Sys2Proof.Machine

/-! ### advance -/

@[simp] theorem State.advance_part (s : State) : s.advance.part = s.part := rfl
@[simp] theorem State.advance_prog (s : State) : s.advance.prog = s.prog := rfl
@[simp] theorem State.advance_pc (s : State) : s.advance.pc = s.pc + 1 := rfl
@[simp] theorem State.advance_w (s : State) : s.advance.w = s.w := rfl
@[simp] theorem State.advance_status (s : State) : s.advance.status = s.status := rfl
@[simp] theorem State.advance_pclath (s : State) : s.advance.pclath = s.pclath := rfl
@[simp] theorem State.advance_fsr (s : State) : s.advance.fsr = s.fsr := rfl
@[simp] theorem State.advance_intcon (s : State) : s.advance.intcon = s.intcon := rfl
@[simp] theorem State.advance_optionReg (s : State) : s.advance.optionReg = s.optionReg := rfl
@[simp] theorem State.advance_ram (s : State) : s.advance.ram = s.ram := rfl
@[simp] theorem State.advance_stack (s : State) : s.advance.stack = s.stack := rfl
@[simp] theorem State.advance_wdt (s : State) : s.advance.wdt = s.wdt := rfl
@[simp] theorem State.advance_wdtPrescaler (s : State) : s.advance.wdtPrescaler = s.wdtPrescaler := rfl
@[simp] theorem State.advance_asleep (s : State) : s.advance.asleep = s.asleep := rfl
@[simp] theorem State.advance_wake (s : State) : s.advance.wake = s.wake := rfl
@[simp] theorem State.advance_outputs (s : State) : s.advance.outputs = s.outputs := rfl
@[simp] theorem State.advance_portInputs (s : State) : s.advance.portInputs = s.portInputs := rfl
@[simp] theorem State.advance_draws (s : State) : s.advance.draws = s.draws := rfl
@[simp] theorem State.advance_env (s : State) : s.advance.env = s.env := rfl

/-! ### withFlags -/

@[simp] theorem State.withFlags_part (u : FlagUpdate) (s : State) : (s.withFlags u).part = s.part := rfl
@[simp] theorem State.withFlags_prog (u : FlagUpdate) (s : State) : (s.withFlags u).prog = s.prog := rfl
@[simp] theorem State.withFlags_pc (u : FlagUpdate) (s : State) : (s.withFlags u).pc = s.pc := rfl
@[simp] theorem State.withFlags_w (u : FlagUpdate) (s : State) : (s.withFlags u).w = s.w := rfl
@[simp] theorem State.withFlags_status (u : FlagUpdate) (s : State) : (s.withFlags u).status = applyFlags u s.status := rfl
@[simp] theorem State.withFlags_pclath (u : FlagUpdate) (s : State) : (s.withFlags u).pclath = s.pclath := rfl
@[simp] theorem State.withFlags_fsr (u : FlagUpdate) (s : State) : (s.withFlags u).fsr = s.fsr := rfl
@[simp] theorem State.withFlags_intcon (u : FlagUpdate) (s : State) : (s.withFlags u).intcon = s.intcon := rfl
@[simp] theorem State.withFlags_optionReg (u : FlagUpdate) (s : State) : (s.withFlags u).optionReg = s.optionReg := rfl
@[simp] theorem State.withFlags_ram (u : FlagUpdate) (s : State) : (s.withFlags u).ram = s.ram := rfl
@[simp] theorem State.withFlags_stack (u : FlagUpdate) (s : State) : (s.withFlags u).stack = s.stack := rfl
@[simp] theorem State.withFlags_wdt (u : FlagUpdate) (s : State) : (s.withFlags u).wdt = s.wdt := rfl
@[simp] theorem State.withFlags_wdtPrescaler (u : FlagUpdate) (s : State) : (s.withFlags u).wdtPrescaler = s.wdtPrescaler := rfl
@[simp] theorem State.withFlags_asleep (u : FlagUpdate) (s : State) : (s.withFlags u).asleep = s.asleep := rfl
@[simp] theorem State.withFlags_wake (u : FlagUpdate) (s : State) : (s.withFlags u).wake = s.wake := rfl
@[simp] theorem State.withFlags_outputs (u : FlagUpdate) (s : State) : (s.withFlags u).outputs = s.outputs := rfl
@[simp] theorem State.withFlags_portInputs (u : FlagUpdate) (s : State) : (s.withFlags u).portInputs = s.portInputs := rfl
@[simp] theorem State.withFlags_draws (u : FlagUpdate) (s : State) : (s.withFlags u).draws = s.draws := rfl
@[simp] theorem State.withFlags_env (u : FlagUpdate) (s : State) : (s.withFlags u).env = s.env := rfl

/-! ### withToPd -/

@[simp] theorem State.withToPd_part (x y : Bool) (s : State) : (s.withToPd x y).part = s.part := rfl
@[simp] theorem State.withToPd_prog (x y : Bool) (s : State) : (s.withToPd x y).prog = s.prog := rfl
@[simp] theorem State.withToPd_pc (x y : Bool) (s : State) : (s.withToPd x y).pc = s.pc := rfl
@[simp] theorem State.withToPd_w (x y : Bool) (s : State) : (s.withToPd x y).w = s.w := rfl
@[simp] theorem State.withToPd_status (x y : Bool) (s : State) : (s.withToPd x y).status = setBit (setBit s.status bitTO x) bitPD y := rfl
@[simp] theorem State.withToPd_pclath (x y : Bool) (s : State) : (s.withToPd x y).pclath = s.pclath := rfl
@[simp] theorem State.withToPd_fsr (x y : Bool) (s : State) : (s.withToPd x y).fsr = s.fsr := rfl
@[simp] theorem State.withToPd_intcon (x y : Bool) (s : State) : (s.withToPd x y).intcon = s.intcon := rfl
@[simp] theorem State.withToPd_optionReg (x y : Bool) (s : State) : (s.withToPd x y).optionReg = s.optionReg := rfl
@[simp] theorem State.withToPd_ram (x y : Bool) (s : State) : (s.withToPd x y).ram = s.ram := rfl
@[simp] theorem State.withToPd_stack (x y : Bool) (s : State) : (s.withToPd x y).stack = s.stack := rfl
@[simp] theorem State.withToPd_wdt (x y : Bool) (s : State) : (s.withToPd x y).wdt = s.wdt := rfl
@[simp] theorem State.withToPd_wdtPrescaler (x y : Bool) (s : State) : (s.withToPd x y).wdtPrescaler = s.wdtPrescaler := rfl
@[simp] theorem State.withToPd_asleep (x y : Bool) (s : State) : (s.withToPd x y).asleep = s.asleep := rfl
@[simp] theorem State.withToPd_wake (x y : Bool) (s : State) : (s.withToPd x y).wake = s.wake := rfl
@[simp] theorem State.withToPd_outputs (x y : Bool) (s : State) : (s.withToPd x y).outputs = s.outputs := rfl
@[simp] theorem State.withToPd_portInputs (x y : Bool) (s : State) : (s.withToPd x y).portInputs = s.portInputs := rfl
@[simp] theorem State.withToPd_draws (x y : Bool) (s : State) : (s.withToPd x y).draws = s.draws := rfl
@[simp] theorem State.withToPd_env (x y : Bool) (s : State) : (s.withToPd x y).env = s.env := rfl

/-! ### withGie -/

@[simp] theorem State.withGie_part (x : Bool) (s : State) : (s.withGie x).part = s.part := rfl
@[simp] theorem State.withGie_prog (x : Bool) (s : State) : (s.withGie x).prog = s.prog := rfl
@[simp] theorem State.withGie_pc (x : Bool) (s : State) : (s.withGie x).pc = s.pc := rfl
@[simp] theorem State.withGie_w (x : Bool) (s : State) : (s.withGie x).w = s.w := rfl
@[simp] theorem State.withGie_status (x : Bool) (s : State) : (s.withGie x).status = s.status := rfl
@[simp] theorem State.withGie_pclath (x : Bool) (s : State) : (s.withGie x).pclath = s.pclath := rfl
@[simp] theorem State.withGie_fsr (x : Bool) (s : State) : (s.withGie x).fsr = s.fsr := rfl
@[simp] theorem State.withGie_intcon (x : Bool) (s : State) : (s.withGie x).intcon = setBit s.intcon bitGIE x := rfl
@[simp] theorem State.withGie_optionReg (x : Bool) (s : State) : (s.withGie x).optionReg = s.optionReg := rfl
@[simp] theorem State.withGie_ram (x : Bool) (s : State) : (s.withGie x).ram = s.ram := rfl
@[simp] theorem State.withGie_stack (x : Bool) (s : State) : (s.withGie x).stack = s.stack := rfl
@[simp] theorem State.withGie_wdt (x : Bool) (s : State) : (s.withGie x).wdt = s.wdt := rfl
@[simp] theorem State.withGie_wdtPrescaler (x : Bool) (s : State) : (s.withGie x).wdtPrescaler = s.wdtPrescaler := rfl
@[simp] theorem State.withGie_asleep (x : Bool) (s : State) : (s.withGie x).asleep = s.asleep := rfl
@[simp] theorem State.withGie_wake (x : Bool) (s : State) : (s.withGie x).wake = s.wake := rfl
@[simp] theorem State.withGie_outputs (x : Bool) (s : State) : (s.withGie x).outputs = s.outputs := rfl
@[simp] theorem State.withGie_portInputs (x : Bool) (s : State) : (s.withGie x).portInputs = s.portInputs := rfl
@[simp] theorem State.withGie_draws (x : Bool) (s : State) : (s.withGie x).draws = s.draws := rfl
@[simp] theorem State.withGie_env (x : Bool) (s : State) : (s.withGie x).env = s.env := rfl

/-! ### clearWatchdog -/

@[simp] theorem State.clearWatchdog_part (s : State) : s.clearWatchdog.part = s.part := rfl
@[simp] theorem State.clearWatchdog_prog (s : State) : s.clearWatchdog.prog = s.prog := rfl
@[simp] theorem State.clearWatchdog_pc (s : State) : s.clearWatchdog.pc = s.pc := rfl
@[simp] theorem State.clearWatchdog_w (s : State) : s.clearWatchdog.w = s.w := rfl
@[simp] theorem State.clearWatchdog_status (s : State) : s.clearWatchdog.status = s.status := rfl
@[simp] theorem State.clearWatchdog_pclath (s : State) : s.clearWatchdog.pclath = s.pclath := rfl
@[simp] theorem State.clearWatchdog_fsr (s : State) : s.clearWatchdog.fsr = s.fsr := rfl
@[simp] theorem State.clearWatchdog_intcon (s : State) : s.clearWatchdog.intcon = s.intcon := rfl
@[simp] theorem State.clearWatchdog_optionReg (s : State) : s.clearWatchdog.optionReg = s.optionReg := rfl
@[simp] theorem State.clearWatchdog_ram (s : State) : s.clearWatchdog.ram = s.ram := rfl
@[simp] theorem State.clearWatchdog_stack (s : State) : s.clearWatchdog.stack = s.stack := rfl
@[simp] theorem State.clearWatchdog_wdt (s : State) : s.clearWatchdog.wdt = .cleared := rfl
@[simp] theorem State.clearWatchdog_wdtPrescaler (s : State) : s.clearWatchdog.wdtPrescaler = .cleared := rfl
@[simp] theorem State.clearWatchdog_asleep (s : State) : s.clearWatchdog.asleep = s.asleep := rfl
@[simp] theorem State.clearWatchdog_wake (s : State) : s.clearWatchdog.wake = s.wake := rfl
@[simp] theorem State.clearWatchdog_outputs (s : State) : s.clearWatchdog.outputs = s.outputs := rfl
@[simp] theorem State.clearWatchdog_portInputs (s : State) : s.clearWatchdog.portInputs = s.portInputs := rfl
@[simp] theorem State.clearWatchdog_draws (s : State) : s.clearWatchdog.draws = s.draws := rfl
@[simp] theorem State.clearWatchdog_env (s : State) : s.clearWatchdog.env = s.env := rfl

/-! ### raiseFlags -/

@[simp] theorem State.raiseFlags_part (b : Byte) (s : State) : (s.raiseFlags b).part = s.part := rfl
@[simp] theorem State.raiseFlags_prog (b : Byte) (s : State) : (s.raiseFlags b).prog = s.prog := rfl
@[simp] theorem State.raiseFlags_pc (b : Byte) (s : State) : (s.raiseFlags b).pc = s.pc := rfl
@[simp] theorem State.raiseFlags_w (b : Byte) (s : State) : (s.raiseFlags b).w = s.w := rfl
@[simp] theorem State.raiseFlags_status (b : Byte) (s : State) : (s.raiseFlags b).status = s.status := rfl
@[simp] theorem State.raiseFlags_pclath (b : Byte) (s : State) : (s.raiseFlags b).pclath = s.pclath := rfl
@[simp] theorem State.raiseFlags_fsr (b : Byte) (s : State) : (s.raiseFlags b).fsr = s.fsr := rfl
@[simp] theorem State.raiseFlags_intcon (b : Byte) (s : State) : (s.raiseFlags b).intcon = s.intcon ||| (b &&& flagMask s.part.irqSources) := rfl
@[simp] theorem State.raiseFlags_optionReg (b : Byte) (s : State) : (s.raiseFlags b).optionReg = s.optionReg := rfl
@[simp] theorem State.raiseFlags_ram (b : Byte) (s : State) : (s.raiseFlags b).ram = s.ram := rfl
@[simp] theorem State.raiseFlags_stack (b : Byte) (s : State) : (s.raiseFlags b).stack = s.stack := rfl
@[simp] theorem State.raiseFlags_wdt (b : Byte) (s : State) : (s.raiseFlags b).wdt = s.wdt := rfl
@[simp] theorem State.raiseFlags_wdtPrescaler (b : Byte) (s : State) : (s.raiseFlags b).wdtPrescaler = s.wdtPrescaler := rfl
@[simp] theorem State.raiseFlags_asleep (b : Byte) (s : State) : (s.raiseFlags b).asleep = s.asleep := rfl
@[simp] theorem State.raiseFlags_wake (b : Byte) (s : State) : (s.raiseFlags b).wake = s.wake := rfl
@[simp] theorem State.raiseFlags_outputs (b : Byte) (s : State) : (s.raiseFlags b).outputs = s.outputs := rfl
@[simp] theorem State.raiseFlags_portInputs (b : Byte) (s : State) : (s.raiseFlags b).portInputs = s.portInputs := rfl
@[simp] theorem State.raiseFlags_draws (b : Byte) (s : State) : (s.raiseFlags b).draws = s.draws := rfl
@[simp] theorem State.raiseFlags_env (b : Byte) (s : State) : (s.raiseFlags b).env = s.env := rfl

/-! ### skipIf -/

@[simp] theorem State.skipIf_part (b : Bool) (s : State) : (s.skipIf b).part = s.part := rfl
@[simp] theorem State.skipIf_prog (b : Bool) (s : State) : (s.skipIf b).prog = s.prog := rfl
@[simp] theorem State.skipIf_pc (b : Bool) (s : State) : (s.skipIf b).pc = if b then s.pc + 1 else s.pc := rfl
@[simp] theorem State.skipIf_w (b : Bool) (s : State) : (s.skipIf b).w = s.w := rfl
@[simp] theorem State.skipIf_status (b : Bool) (s : State) : (s.skipIf b).status = s.status := rfl
@[simp] theorem State.skipIf_pclath (b : Bool) (s : State) : (s.skipIf b).pclath = s.pclath := rfl
@[simp] theorem State.skipIf_fsr (b : Bool) (s : State) : (s.skipIf b).fsr = s.fsr := rfl
@[simp] theorem State.skipIf_intcon (b : Bool) (s : State) : (s.skipIf b).intcon = s.intcon := rfl
@[simp] theorem State.skipIf_optionReg (b : Bool) (s : State) : (s.skipIf b).optionReg = s.optionReg := rfl
@[simp] theorem State.skipIf_ram (b : Bool) (s : State) : (s.skipIf b).ram = s.ram := rfl
@[simp] theorem State.skipIf_stack (b : Bool) (s : State) : (s.skipIf b).stack = s.stack := rfl
@[simp] theorem State.skipIf_wdt (b : Bool) (s : State) : (s.skipIf b).wdt = s.wdt := rfl
@[simp] theorem State.skipIf_wdtPrescaler (b : Bool) (s : State) : (s.skipIf b).wdtPrescaler = s.wdtPrescaler := rfl
@[simp] theorem State.skipIf_asleep (b : Bool) (s : State) : (s.skipIf b).asleep = s.asleep := rfl
@[simp] theorem State.skipIf_wake (b : Bool) (s : State) : (s.skipIf b).wake = s.wake := rfl
@[simp] theorem State.skipIf_outputs (b : Bool) (s : State) : (s.skipIf b).outputs = s.outputs := rfl
@[simp] theorem State.skipIf_portInputs (b : Bool) (s : State) : (s.skipIf b).portInputs = s.portInputs := rfl
@[simp] theorem State.skipIf_draws (b : Bool) (s : State) : (s.skipIf b).draws = s.draws := rfl
@[simp] theorem State.skipIf_env (b : Bool) (s : State) : (s.skipIf b).env = s.env := rfl

/-! ### dropInput -/

@[simp] theorem State.dropInput_part (s : State) : s.dropInput.part = s.part := rfl
@[simp] theorem State.dropInput_prog (s : State) : s.dropInput.prog = s.prog := rfl
@[simp] theorem State.dropInput_pc (s : State) : s.dropInput.pc = s.pc := rfl
@[simp] theorem State.dropInput_w (s : State) : s.dropInput.w = s.w := rfl
@[simp] theorem State.dropInput_status (s : State) : s.dropInput.status = s.status := rfl
@[simp] theorem State.dropInput_pclath (s : State) : s.dropInput.pclath = s.pclath := rfl
@[simp] theorem State.dropInput_fsr (s : State) : s.dropInput.fsr = s.fsr := rfl
@[simp] theorem State.dropInput_intcon (s : State) : s.dropInput.intcon = s.intcon := rfl
@[simp] theorem State.dropInput_optionReg (s : State) : s.dropInput.optionReg = s.optionReg := rfl
@[simp] theorem State.dropInput_ram (s : State) : s.dropInput.ram = s.ram := rfl
@[simp] theorem State.dropInput_stack (s : State) : s.dropInput.stack = s.stack := rfl
@[simp] theorem State.dropInput_wdt (s : State) : s.dropInput.wdt = s.wdt := rfl
@[simp] theorem State.dropInput_wdtPrescaler (s : State) : s.dropInput.wdtPrescaler = s.wdtPrescaler := rfl
@[simp] theorem State.dropInput_asleep (s : State) : s.dropInput.asleep = s.asleep := rfl
@[simp] theorem State.dropInput_wake (s : State) : s.dropInput.wake = s.wake := rfl
@[simp] theorem State.dropInput_outputs (s : State) : s.dropInput.outputs = s.outputs := rfl
@[simp] theorem State.dropInput_portInputs (s : State) : s.dropInput.portInputs = s.portInputs := rfl
@[simp] theorem State.dropInput_draws (s : State) : s.dropInput.draws = s.draws := rfl
@[simp] theorem State.dropInput_env (s : State) : s.dropInput.env = s.env.tail := rfl

/-! ### withWake -/

@[simp] theorem State.withWake_part (p : WakePhase) (s : State) : (s.withWake p).part = s.part := rfl
@[simp] theorem State.withWake_prog (p : WakePhase) (s : State) : (s.withWake p).prog = s.prog := rfl
@[simp] theorem State.withWake_pc (p : WakePhase) (s : State) : (s.withWake p).pc = s.pc := rfl
@[simp] theorem State.withWake_w (p : WakePhase) (s : State) : (s.withWake p).w = s.w := rfl
@[simp] theorem State.withWake_status (p : WakePhase) (s : State) : (s.withWake p).status = s.status := rfl
@[simp] theorem State.withWake_pclath (p : WakePhase) (s : State) : (s.withWake p).pclath = s.pclath := rfl
@[simp] theorem State.withWake_fsr (p : WakePhase) (s : State) : (s.withWake p).fsr = s.fsr := rfl
@[simp] theorem State.withWake_intcon (p : WakePhase) (s : State) : (s.withWake p).intcon = s.intcon := rfl
@[simp] theorem State.withWake_optionReg (p : WakePhase) (s : State) : (s.withWake p).optionReg = s.optionReg := rfl
@[simp] theorem State.withWake_ram (p : WakePhase) (s : State) : (s.withWake p).ram = s.ram := rfl
@[simp] theorem State.withWake_stack (p : WakePhase) (s : State) : (s.withWake p).stack = s.stack := rfl
@[simp] theorem State.withWake_wdt (p : WakePhase) (s : State) : (s.withWake p).wdt = s.wdt := rfl
@[simp] theorem State.withWake_wdtPrescaler (p : WakePhase) (s : State) : (s.withWake p).wdtPrescaler = s.wdtPrescaler := rfl
@[simp] theorem State.withWake_asleep (p : WakePhase) (s : State) : (s.withWake p).asleep = s.asleep := rfl
@[simp] theorem State.withWake_wake (p : WakePhase) (s : State) : (s.withWake p).wake = p := rfl
@[simp] theorem State.withWake_outputs (p : WakePhase) (s : State) : (s.withWake p).outputs = s.outputs := rfl
@[simp] theorem State.withWake_portInputs (p : WakePhase) (s : State) : (s.withWake p).portInputs = s.portInputs := rfl
@[simp] theorem State.withWake_draws (p : WakePhase) (s : State) : (s.withWake p).draws = s.draws := rfl
@[simp] theorem State.withWake_env (p : WakePhase) (s : State) : (s.withWake p).env = s.env := rfl

/-! ### tickWatchdog -/

@[simp] theorem State.tickWatchdog_part (s : State) : s.tickWatchdog.part = s.part := by
  unfold State.tickWatchdog; split <;> rfl
@[simp] theorem State.tickWatchdog_prog (s : State) : s.tickWatchdog.prog = s.prog := by
  unfold State.tickWatchdog; split <;> rfl
@[simp] theorem State.tickWatchdog_pc (s : State) : s.tickWatchdog.pc = s.pc := by
  unfold State.tickWatchdog; split <;> rfl
@[simp] theorem State.tickWatchdog_w (s : State) : s.tickWatchdog.w = s.w := by
  unfold State.tickWatchdog; split <;> rfl
@[simp] theorem State.tickWatchdog_status (s : State) : s.tickWatchdog.status = s.status := by
  unfold State.tickWatchdog; split <;> rfl
@[simp] theorem State.tickWatchdog_pclath (s : State) : s.tickWatchdog.pclath = s.pclath := by
  unfold State.tickWatchdog; split <;> rfl
@[simp] theorem State.tickWatchdog_fsr (s : State) : s.tickWatchdog.fsr = s.fsr := by
  unfold State.tickWatchdog; split <;> rfl
@[simp] theorem State.tickWatchdog_intcon (s : State) : s.tickWatchdog.intcon = s.intcon := by
  unfold State.tickWatchdog; split <;> rfl
@[simp] theorem State.tickWatchdog_optionReg (s : State) : s.tickWatchdog.optionReg = s.optionReg := by
  unfold State.tickWatchdog; split <;> rfl
@[simp] theorem State.tickWatchdog_ram (s : State) : s.tickWatchdog.ram = s.ram := by
  unfold State.tickWatchdog; split <;> rfl
@[simp] theorem State.tickWatchdog_stack (s : State) : s.tickWatchdog.stack = s.stack := by
  unfold State.tickWatchdog; split <;> rfl
@[simp] theorem State.tickWatchdog_wdt (s : State) :
    s.tickWatchdog.wdt = if s.part.wdte then .running else s.wdt := by
  unfold State.tickWatchdog; split <;> rfl
@[simp] theorem State.tickWatchdog_wdtPrescaler (s : State) :
    s.tickWatchdog.wdtPrescaler = if s.part.wdte then .running else s.wdtPrescaler := by
  unfold State.tickWatchdog; split <;> rfl
@[simp] theorem State.tickWatchdog_asleep (s : State) : s.tickWatchdog.asleep = s.asleep := by
  unfold State.tickWatchdog; split <;> rfl
@[simp] theorem State.tickWatchdog_wake (s : State) : s.tickWatchdog.wake = s.wake := by
  unfold State.tickWatchdog; split <;> rfl
@[simp] theorem State.tickWatchdog_outputs (s : State) : s.tickWatchdog.outputs = s.outputs := by
  unfold State.tickWatchdog; split <;> rfl
@[simp] theorem State.tickWatchdog_portInputs (s : State) : s.tickWatchdog.portInputs = s.portInputs := by
  unfold State.tickWatchdog; split <;> rfl
@[simp] theorem State.tickWatchdog_draws (s : State) : s.tickWatchdog.draws = s.draws := by
  unfold State.tickWatchdog; split <;> rfl
@[simp] theorem State.tickWatchdog_env (s : State) : s.tickWatchdog.env = s.env := by
  unfold State.tickWatchdog; split <;> rfl

/-! ### sample -/

@[simp] theorem State.sample_part (b : Boundary) (s : State) : (s.sample b).part = s.part := by simp [State.sample]
@[simp] theorem State.sample_prog (b : Boundary) (s : State) : (s.sample b).prog = s.prog := by simp [State.sample]
@[simp] theorem State.sample_pc (b : Boundary) (s : State) : (s.sample b).pc = s.pc := by simp [State.sample]
@[simp] theorem State.sample_w (b : Boundary) (s : State) : (s.sample b).w = s.w := by simp [State.sample]
@[simp] theorem State.sample_status (b : Boundary) (s : State) : (s.sample b).status = s.status := by simp [State.sample]
@[simp] theorem State.sample_pclath (b : Boundary) (s : State) : (s.sample b).pclath = s.pclath := by simp [State.sample]
@[simp] theorem State.sample_fsr (b : Boundary) (s : State) : (s.sample b).fsr = s.fsr := by simp [State.sample]
@[simp] theorem State.sample_intcon (b : Boundary) (s : State) :
    (s.sample b).intcon = s.intcon ||| (b.setFlags &&& flagMask s.part.irqSources) := by simp [State.sample]
@[simp] theorem State.sample_optionReg (b : Boundary) (s : State) : (s.sample b).optionReg = s.optionReg := by simp [State.sample]
@[simp] theorem State.sample_ram (b : Boundary) (s : State) : (s.sample b).ram = s.ram := by simp [State.sample]
@[simp] theorem State.sample_stack (b : Boundary) (s : State) : (s.sample b).stack = s.stack := by simp [State.sample]
@[simp] theorem State.sample_wdt (b : Boundary) (s : State) :
    (s.sample b).wdt = if s.part.wdte then .running else s.wdt := by
  rw [State.sample, State.tickWatchdog_wdt]; rfl
@[simp] theorem State.sample_wdtPrescaler (b : Boundary) (s : State) :
    (s.sample b).wdtPrescaler = if s.part.wdte then .running else s.wdtPrescaler := by
  rw [State.sample, State.tickWatchdog_wdtPrescaler]; rfl
@[simp] theorem State.sample_asleep (b : Boundary) (s : State) : (s.sample b).asleep = s.asleep := by simp [State.sample]
@[simp] theorem State.sample_wake (b : Boundary) (s : State) : (s.sample b).wake = s.wake := by simp [State.sample]
@[simp] theorem State.sample_outputs (b : Boundary) (s : State) : (s.sample b).outputs = s.outputs := by simp [State.sample]
@[simp] theorem State.sample_portInputs (b : Boundary) (s : State) : (s.sample b).portInputs = s.portInputs := by simp [State.sample]
@[simp] theorem State.sample_draws (b : Boundary) (s : State) : (s.sample b).draws = s.draws := by simp [State.sample]
@[simp] theorem State.sample_env (b : Boundary) (s : State) : (s.sample b).env = s.env := by simp [State.sample]

/-- With the watchdog disabled nothing ticks. -/
theorem State.tickWatchdog_of_disabled (s : State) (h : s.part.wdte = false) : s.tickWatchdog = s := by
  simp [State.tickWatchdog, h]

/-- No flag raised, nothing changed. -/
@[simp] theorem State.raiseFlags_zero (s : State) : s.raiseFlags 0 = s := by
  simp [State.raiseFlags]

/-- A boundary with no flag bit and the watchdog disabled begins with nothing changed. -/
theorem State.sample_of_quiet (b : Boundary) (s : State) (hb : b.setFlags = 0) (hw : s.part.wdte = false) :
    s.sample b = s := by
  rw [State.sample, hb, State.raiseFlags_zero, State.tickWatchdog_of_disabled s hw]

end Sys2Proof.Machine
end

