-- ==== Sys2Proof/Laws/Ops.lean ====
section
/-! SUPPORT. What each shared operation can do, said once: the lemmas to cite instead of unfolding it. -/

namespace Sys2Proof.Machine

/-! ### Bits of a byte -/

/-- Bit `j` of a byte after bit `i` is given a value. -/
theorem setBit_getLsbD (b : Byte) (i j : Nat) (x : Bool) (hi : i < 8) :
    (setBit b i x).getLsbD j = if j = i then x else b.getLsbD j := by
  have key : ∀ i : Fin 8, ∀ j : Fin 8, (1#8 <<< i.val).getLsbD j.val = decide (j.val = i.val) := by decide
  by_cases hj : j < 8
  · have hk := key ⟨i, hi⟩ ⟨j, hj⟩
    simp only at hk
    cases x
    · simp only [setBit, Bool.false_eq_true, if_false, BitVec.getLsbD_and, BitVec.getLsbD_not, hk, hj, decide_true,
        Bool.true_and]
      by_cases h : j = i <;> simp [h]
    · simp only [setBit, if_true, BitVec.getLsbD_or, hk]
      by_cases h : j = i <;> simp [h]
  · have h : j ≠ i := by omega
    rw [if_neg h, BitVec.getLsbD_of_ge _ _ (by omega), BitVec.getLsbD_of_ge _ _ (by omega)]

/-- The flags an instruction does not affect leave STATUS as it is. -/
@[simp] theorem applyFlags_noFlags (b : Byte) : applyFlags noFlags b = b := rfl

/-- Writing no flag changes nothing. -/
@[simp] theorem State.withFlags_noFlags (s : State) : s.withFlags noFlags = s := rfl

/-- One flag written: its own bit. -/
theorem putFlag_getLsbD (i j : Nat) (x : Option Bool) (b : Byte) (hi : i < 8) :
    (putFlag i x b).getLsbD j = if j = i then x.getD (b.getLsbD j) else b.getLsbD j := by
  cases x with
  | none => simp [putFlag]
  | some v => simp [putFlag, setBit_getLsbD b i j v hi]

/-- Each bit of STATUS after the flags are written: C, DC and Z where affected, every other bit as it was. -/
theorem applyFlags_getLsbD (u : FlagUpdate) (b : Byte) (j : Nat) :
    (applyFlags u b).getLsbD j =
      if j = bitZ then u.z.getD (b.getLsbD j)
      else if j = bitDC then u.dc.getD (b.getLsbD j)
      else if j = bitC then u.c.getD (b.getLsbD j)
      else b.getLsbD j := by
  simp only [applyFlags]
  rw [putFlag_getLsbD _ _ _ _ (by decide), putFlag_getLsbD _ _ _ _ (by decide), putFlag_getLsbD _ _ _ _ (by decide)]
  by_cases h2 : j = bitZ
  · subst h2; simp [bitZ, bitDC, bitC]
  · by_cases h1 : j = bitDC
    · subst h1; simp [bitZ, bitDC, bitC]
    · simp [h2, h1]

/-- TO and PD after they are written, and every other bit of STATUS as it was. -/
theorem withToPd_getLsbD (s : State) (x y : Bool) (j : Nat) :
    (s.withToPd x y).status.getLsbD j =
      if j = bitPD then y else if j = bitTO then x else s.status.getLsbD j := by
  rw [State.withToPd_status, setBit_getLsbD _ _ _ _ (by decide), setBit_getLsbD _ _ _ _ (by decide)]

/-! ### Reading -/

@[simp] theorem afterRead_part (l : Loc) (s : State) : (afterRead l s).part = s.part := by cases l <;> rfl
@[simp] theorem afterRead_prog (l : Loc) (s : State) : (afterRead l s).prog = s.prog := by cases l <;> rfl
@[simp] theorem afterRead_pc (l : Loc) (s : State) : (afterRead l s).pc = s.pc := by cases l <;> rfl
@[simp] theorem afterRead_w (l : Loc) (s : State) : (afterRead l s).w = s.w := by cases l <;> rfl
@[simp] theorem afterRead_status (l : Loc) (s : State) : (afterRead l s).status = s.status := by cases l <;> rfl
@[simp] theorem afterRead_pclath (l : Loc) (s : State) : (afterRead l s).pclath = s.pclath := by cases l <;> rfl
@[simp] theorem afterRead_fsr (l : Loc) (s : State) : (afterRead l s).fsr = s.fsr := by cases l <;> rfl
@[simp] theorem afterRead_intcon (l : Loc) (s : State) : (afterRead l s).intcon = s.intcon := by cases l <;> rfl
@[simp] theorem afterRead_optionReg (l : Loc) (s : State) : (afterRead l s).optionReg = s.optionReg := by cases l <;> rfl
@[simp] theorem afterRead_ram (l : Loc) (s : State) : (afterRead l s).ram = s.ram := by cases l <;> rfl
@[simp] theorem afterRead_stack (l : Loc) (s : State) : (afterRead l s).stack = s.stack := by cases l <;> rfl
@[simp] theorem afterRead_wdt (l : Loc) (s : State) : (afterRead l s).wdt = s.wdt := by cases l <;> rfl
@[simp] theorem afterRead_wdtPrescaler (l : Loc) (s : State) : (afterRead l s).wdtPrescaler = s.wdtPrescaler := by cases l <;> rfl
@[simp] theorem afterRead_asleep (l : Loc) (s : State) : (afterRead l s).asleep = s.asleep := by cases l <;> rfl
@[simp] theorem afterRead_wake (l : Loc) (s : State) : (afterRead l s).wake = s.wake := by cases l <;> rfl
@[simp] theorem afterRead_outputs (l : Loc) (s : State) : (afterRead l s).outputs = s.outputs := by cases l <;> rfl
@[simp] theorem afterRead_env (l : Loc) (s : State) : (afterRead l s).env = s.env := by cases l <;> rfl

/-- A read that is no peripheral read changes nothing (20_memory.md R48). -/
theorem afterRead_eq_self {l : Loc} (h : ∀ n a, l ≠ .port n a) (s : State) : afterRead l s = s := by
  cases l with
  | port n a => exact absurd rfl (h n a)
  | _ => rfl

/-! ### Writing -/

@[simp] theorem writeLoc_part (u : FlagUpdate) (l : Loc) (v : Byte) (s : State) : (writeLoc u l v s).part = s.part := by
  cases l with
  | sfr r => cases r <;> rfl
  | _ => rfl

@[simp] theorem writeLoc_prog (u : FlagUpdate) (l : Loc) (v : Byte) (s : State) : (writeLoc u l v s).prog = s.prog := by
  cases l with
  | sfr r => cases r <;> rfl
  | _ => rfl

@[simp] theorem writeLoc_w (u : FlagUpdate) (l : Loc) (v : Byte) (s : State) : (writeLoc u l v s).w = s.w := by
  cases l with
  | sfr r => cases r <;> rfl
  | _ => rfl

@[simp] theorem writeLoc_stack (u : FlagUpdate) (l : Loc) (v : Byte) (s : State) : (writeLoc u l v s).stack = s.stack := by
  cases l with
  | sfr r => cases r <;> rfl
  | _ => rfl

@[simp] theorem writeLoc_wdt (u : FlagUpdate) (l : Loc) (v : Byte) (s : State) : (writeLoc u l v s).wdt = s.wdt := by
  cases l with
  | sfr r => cases r <;> rfl
  | _ => rfl

@[simp] theorem writeLoc_wdtPrescaler (u : FlagUpdate) (l : Loc) (v : Byte) (s : State) : (writeLoc u l v s).wdtPrescaler = s.wdtPrescaler := by
  cases l with
  | sfr r => cases r <;> rfl
  | _ => rfl

@[simp] theorem writeLoc_asleep (u : FlagUpdate) (l : Loc) (v : Byte) (s : State) : (writeLoc u l v s).asleep = s.asleep := by
  cases l with
  | sfr r => cases r <;> rfl
  | _ => rfl

@[simp] theorem writeLoc_wake (u : FlagUpdate) (l : Loc) (v : Byte) (s : State) : (writeLoc u l v s).wake = s.wake := by
  cases l with
  | sfr r => cases r <;> rfl
  | _ => rfl

@[simp] theorem writeLoc_portInputs (u : FlagUpdate) (l : Loc) (v : Byte) (s : State) : (writeLoc u l v s).portInputs = s.portInputs := by
  cases l with
  | sfr r => cases r <;> rfl
  | _ => rfl

@[simp] theorem writeLoc_draws (u : FlagUpdate) (l : Loc) (v : Byte) (s : State) : (writeLoc u l v s).draws = s.draws := by
  cases l with
  | sfr r => cases r <;> rfl
  | _ => rfl

@[simp] theorem writeLoc_env (u : FlagUpdate) (l : Loc) (v : Byte) (s : State) : (writeLoc u l v s).env = s.env := by
  cases l with
  | sfr r => cases r <;> rfl
  | _ => rfl

/-- A file write changes pc only where its location is that register. -/
theorem writeLoc_pc (u : FlagUpdate) (l : Loc) (v : Byte) (s : State) :
    (writeLoc u l v s).pc = if l = .sfr .pcl then s.pclath ++ v else s.pc := by
  cases l with
  | sfr r => cases r <;> rfl
  | _ => rfl

/-- A file write changes status only where its location is that register. -/
theorem writeLoc_status (u : FlagUpdate) (l : Loc) (v : Byte) (s : State) :
    (writeLoc u l v s).status = if l = .sfr .status then statusAfterFileWrite u v s.status else s.status := by
  cases l with
  | sfr r => cases r <;> rfl
  | _ => rfl

/-- A file write changes pclath only where its location is that register. -/
theorem writeLoc_pclath (u : FlagUpdate) (l : Loc) (v : Byte) (s : State) :
    (writeLoc u l v s).pclath = if l = .sfr .pclath then v.extractLsb' 0 5 else s.pclath := by
  cases l with
  | sfr r => cases r <;> rfl
  | _ => rfl

/-- A file write changes fsr only where its location is that register. -/
theorem writeLoc_fsr (u : FlagUpdate) (l : Loc) (v : Byte) (s : State) :
    (writeLoc u l v s).fsr = if l = .sfr .fsr then v else s.fsr := by
  cases l with
  | sfr r => cases r <;> rfl
  | _ => rfl

/-- A file write changes intcon only where its location is that register. -/
theorem writeLoc_intcon (u : FlagUpdate) (l : Loc) (v : Byte) (s : State) :
    (writeLoc u l v s).intcon = if l = .sfr .intcon then v else s.intcon := by
  cases l with
  | sfr r => cases r <;> rfl
  | _ => rfl

/-- A file write changes optionReg only where its location is that register. -/
theorem writeLoc_optionReg (u : FlagUpdate) (l : Loc) (v : Byte) (s : State) :
    (writeLoc u l v s).optionReg = if l = .sfr .optionReg then v else s.optionReg := by
  cases l with
  | sfr r => cases r <;> rfl
  | _ => rfl

/-- A file write leaves every byte of data memory but the one at its location. -/
theorem writeLoc_ramGet_other (u : FlagUpdate) (l : Loc) (v : Byte) (s : State) {a : EAddr} (h : l ≠ .ram a) :
    ramGet (writeLoc u l v s).ram a.toNat = ramGet s.ram a.toNat := by
  cases l with
  | ram b =>
    have hab : a.toNat ≠ b.toNat := fun e => h (congrArg Loc.ram (BitVec.eq_of_toNat_eq e.symm))
    exact ramGet_ramSet_other s.ram b.toNat v hab
  | sfr r => cases r <;> rfl
  | _ => rfl

/-- A file write changes data memory only where its location is a general-purpose register. -/
theorem writeLoc_ram (u : FlagUpdate) (l : Loc) (v : Byte) (s : State) (h : ∀ a, l ≠ .ram a) :
    (writeLoc u l v s).ram = s.ram := by
  cases l with
  | ram a => exact absurd rfl (h a)
  | sfr r => cases r <;> rfl
  | _ => rfl

/-- A file write adds an output event only where its location is a peripheral register. -/
theorem writeLoc_outputs (u : FlagUpdate) (l : Loc) (v : Byte) (s : State) (h : ∀ n a, l ≠ .port n a) :
    (writeLoc u l v s).outputs = s.outputs := by
  cases l with
  | port n a => exact absurd rfl (h n a)
  | sfr r => cases r <;> rfl
  | _ => rfl

/-- A file write keeps data memory in canonical form. -/
theorem writeLoc_ram_wf (u : FlagUpdate) (l : Loc) (v : Byte) (s : State) (h : Memory.wf s.ram = true) :
    Memory.wf (writeLoc u l v s).ram = true := by
  cases l with
  | ram a => exact ramSet_wf h a.toNat v
  | sfr r => cases r <;> exact h
  | _ => exact h

/-! ### The location of an operand -/

/-- Following mirrors ends at an address with the class the device map gives it, or at none. -/
theorem followMirrors_class (p : Part) (n : Nat) (a : EAddr) :
    (followMirrors p n a).2 = classOf p (followMirrors p n a).1 ∨ (followMirrors p n a).2 = .unimplemented := by
  induction n generalizing a with
  | zero => exact .inr rfl
  | succ n ih =>
    simp only [followMirrors]
    split
    · exact ih _
    · exact .inl rfl

/-- A location that is a general-purpose register is at an address classed GPR. -/
theorem plainLoc_ram {a b : EAddr} {c : RegClass} (h : plainLoc a c = some (.ram b)) : a = b ∧ c = .gpr := by
  cases c <;> simp_all [plainLoc]

/-- An access that reaches a general-purpose register reaches an address classed GPR (20_memory.md R42, R43). -/
theorem locate_ram {s : State} {a b : EAddr} (h : locate s a = some (.ram b)) : classOf s.part b = .gpr := by
  have key : ∀ x : EAddr, plainLoc (storageOf s.part x).1 (storageOf s.part x).2 = some (.ram b) →
      classOf s.part b = .gpr := by
    intro x hx
    obtain ⟨h1, h2⟩ := plainLoc_ram hx
    rcases followMirrors_class s.part 257 x with hc | hc
    · rw [← h1]; exact hc.symm.trans h2
    · exact absurd (h2.symm.trans hc) (by simp)
  unfold locate at h
  split at h
  · exact key _ h
  · next p c hne heq =>
    exact key a (by rw [heq]; exact h)

/-- A file operand in a general-purpose register stands at an address classed GPR. -/
theorem operand_ram {s : State} {f : FAddr} {b : EAddr} (h : operand s f = some (.ram b)) :
    classOf s.part b = .gpr := locate_ram h

/-! ### Stack, returns, interrupt entry -/

/-- A push that succeeds found room, and adds the address on top. -/
theorem push_ok {v : PAddr} {s t : State} (h : push v s = .ok t) :
    s.stack.length < s.part.stackDepth ∧ t = { s with stack := v :: s.stack } := by
  unfold push at h
  split at h
  · next hlt => exact ⟨hlt, (Except.ok.inj h).symm⟩
  · cases h

/-- With room a push succeeds. -/
theorem push_of_room {v : PAddr} {s : State} (h : s.stack.length < s.part.stackDepth) :
    push v s = .ok { s with stack := v :: s.stack } := by simp [push, h]

/-- A push that fails found the stack full. -/
theorem push_error {v : PAddr} {s : State} {r : Fault} (h : push v s = .error r) :
    s.part.stackDepth ≤ s.stack.length ∧ r = .stackOverflow := by
  unfold push at h
  split at h
  · cases h
  · next hlt => exact ⟨Nat.le_of_not_lt hlt, (Except.error.inj h).symm⟩

/-- A pop that succeeds took the top. -/
theorem pop_ok {v : PAddr} {s t : State} (h : pop s = .ok (v, t)) :
    s.stack = v :: t.stack ∧ t = { s with stack := t.stack } := by
  unfold pop at h
  split at h
  · cases h
  · next a rest hs =>
    obtain ⟨rfl, rfl⟩ := Prod.mk.inj (Except.ok.inj h)
    exact ⟨hs, rfl⟩

/-- A pop that fails found the stack empty. -/
theorem pop_error {s : State} {r : Fault} (h : pop s = .error r) : s.stack = [] ∧ r = .stackUnderflow := by
  unfold pop at h
  split at h
  · next hs => exact ⟨hs, (Except.error.inj h).symm⟩
  · cases h

/-- A return on a stack with an entry. -/
theorem returnFromStack_cons {s : State} {a : PAddr} {rest : List PAddr} (h : s.stack = a :: rest) :
    returnFromStack s = .next { s with stack := rest, pc := a } := by simp [returnFromStack, pop, h]

/-- A return that has a next state popped its address. -/
theorem returnFromStack_next {s t : State} (h : returnFromStack s = .next t) :
    ∃ a rest, s.stack = a :: rest ∧ t = { s with stack := rest, pc := a } := by
  cases hs : s.stack with
  | nil => simp [returnFromStack, pop, hs] at h
  | cons a rest =>
    rw [returnFromStack_cons hs] at h
    exact ⟨a, rest, rfl, (Host.Outcome.next.inj h).symm⟩

/-- A return from interrupt on a stack with an entry. -/
theorem returnFromInterrupt_cons {s : State} {a : PAddr} {rest : List PAddr} (h : s.stack = a :: rest) :
    returnFromInterrupt s = .next ({ s with stack := rest, pc := a }.withGie true) := by
  simp [returnFromInterrupt, pop, h]

/-- A return from interrupt that has a next state popped its address and set GIE. -/
theorem returnFromInterrupt_next {s t : State} (h : returnFromInterrupt s = .next t) :
    ∃ a rest, s.stack = a :: rest ∧ t = { s with stack := rest, pc := a }.withGie true := by
  cases hs : s.stack with
  | nil => simp [returnFromInterrupt, pop, hs] at h
  | cons a rest =>
    rw [returnFromInterrupt_cons hs] at h
    exact ⟨a, rest, rfl, (Host.Outcome.next.inj h).symm⟩

/-- Interrupt entry that has a next state (60_exceptions.md R153). -/
theorem interruptEntry_next {s t : State} (h : interruptEntry s = .next t) :
    s.stack.length < s.part.stackDepth ∧
      t = { s.withGie false with stack := s.pc :: s.stack, pc := irqVector, wake := .idle } := by
  unfold interruptEntry at h
  split at h
  · cases h
  · next s1 hs =>
    obtain ⟨hlt, rfl⟩ := push_ok hs
    exact ⟨by simpa using hlt, (Host.Outcome.next.inj h).symm⟩

/-- CALL with a next state (43_call_goto.md R141). -/
theorem execCall_next {k : BitVec 11} {s t : State} (h : execCall k s = .next t) :
    s.stack.length < s.part.stackDepth ∧
      t = { s with stack := (s.pc + 1) :: s.stack, pc := pageTarget s k } := by
  unfold execCall at h
  split at h
  · cases h
  · next s1 hs =>
    obtain ⟨hlt, rfl⟩ := push_ok hs
    exact ⟨hlt, (Host.Outcome.next.inj h).symm⟩

/-! ### The shared shapes of the meanings -/

/-- With an implemented operand the meaning goes on from its location. -/
theorem withOperand_some {s : State} {f : FAddr} {l : Loc} (h : operand s f = some l) (k : Loc → Outcome) :
    withOperand s f k = k l := by simp [withOperand, h]

/-- Without one it is refused (40_byte_oriented.md R81). -/
theorem withOperand_none {s : State} {f : FAddr} (h : operand s f = none) (k : Loc → Outcome) :
    withOperand s f k = .refused .unimplementedFile := by simp [withOperand, h]

/-- A next state of an instruction with a file operand comes from an implemented operand. -/
theorem withOperand_next {s t : State} {f : FAddr} {k : Loc → Outcome} (h : withOperand s f k = .next t) :
    ∃ l, operand s f = some l ∧ k l = .next t := by
  cases ho : operand s f with
  | none => simp [withOperand, ho] at h
  | some l => exact ⟨l, rfl, by simpa [withOperand, ho] using h⟩

/-- A next state of `f,d` is a stored result. -/
theorem computeFd_next {c : Byte → Byte → Bool → Byte × FlagUpdate} {f : FAddr} {d : Dest} {s t : State}
    (h : computeFd c f d s = .next t) :
    ∃ l, operand s f = some l ∧ t = storeResult d l (c (readLoc l s) s.w s.carry).1
      (c (readLoc l s) s.w s.carry).2 (afterRead l s) := by
  obtain ⟨l, ho, hk⟩ := withOperand_next h
  exact ⟨l, ho, (Host.Outcome.next.inj hk).symm⟩

/-- A next state of DECFSZ or INCFSZ is a stored result and perhaps a skip; the destination was not PCL. -/
theorem computeFdSkip_next {c : Byte → Byte} {f : FAddr} {d : Dest} {s t : State}
    (h : computeFdSkip c f d s = .next t) :
    ∃ l, operand s f = some l ∧ ¬(d = .f ∧ l = .sfr .pcl) ∧
      t = (storeResult d l (c (readLoc l s)) noFlags (afterRead l s)).skipIf (c (readLoc l s) == 0) := by
  obtain ⟨l, ho, hk⟩ := withOperand_next h
  split at hk
  · cases hk
  · next hp => exact ⟨l, ho, hp, (Host.Outcome.next.inj hk).symm⟩

/-- A next state of CLRF or MOVWF is a stored value. -/
theorem writeOnly_next {v : Byte} {u : FlagUpdate} {f : FAddr} {s t : State} (h : writeOnly v u f s = .next t) :
    ∃ l, operand s f = some l ∧ t = storeResult .f l v u s := by
  obtain ⟨l, ho, hk⟩ := withOperand_next h
  exact ⟨l, ho, (Host.Outcome.next.inj hk).symm⟩

/-- A next state of BCF or BSF is the byte read with one bit changed, stored. -/
theorem changeBit_next {x : Bool} {f : FAddr} {b : BitVec 3} {s t : State} (h : changeBit x f b s = .next t) :
    ∃ l, operand s f = some l ∧
      t = storeResult .f l (setBit (readLoc l s) b.toNat x) noFlags (afterRead l s) := by
  obtain ⟨l, ho, hk⟩ := withOperand_next h
  exact ⟨l, ho, (Host.Outcome.next.inj hk).symm⟩

/-- A next state of BTFSC or BTFSS is the state after the read, one or two words further. -/
theorem skipOnBit_next {x : Bool} {f : FAddr} {b : BitVec 3} {s t : State} (h : skipOnBit x f b s = .next t) :
    ∃ l, operand s f = some l ∧ t = (afterRead l s).advance.skipIf ((readLoc l s).getLsbD b.toNat == x) := by
  obtain ⟨l, ho, hk⟩ := withOperand_next h
  exact ⟨l, ho, (Host.Outcome.next.inj hk).symm⟩

/-- A result stored in W (40_byte_oriented.md R80): the file register keeps its value. -/
theorem storeResult_w (l : Loc) (v : Byte) (u : FlagUpdate) (s : State) :
    storeResult .w l v u s = { s with pc := s.pc + 1, w := v, status := applyFlags u s.status } := rfl

/-- A result stored in F: the file write, then the flags; W keeps its value. -/
theorem storeResult_f (l : Loc) (v : Byte) (u : FlagUpdate) (s : State) :
    storeResult .f l v u s = (writeLoc u l v s.advance).withFlags u := rfl

@[simp] theorem storeResult_part (d : Dest) (l : Loc) (v : Byte) (u : FlagUpdate) (s : State) :
    (storeResult d l v u s).part = s.part := by cases d <;> simp [storeResult]

@[simp] theorem storeResult_prog (d : Dest) (l : Loc) (v : Byte) (u : FlagUpdate) (s : State) :
    (storeResult d l v u s).prog = s.prog := by cases d <;> simp [storeResult]

@[simp] theorem storeResult_stack (d : Dest) (l : Loc) (v : Byte) (u : FlagUpdate) (s : State) :
    (storeResult d l v u s).stack = s.stack := by cases d <;> simp [storeResult]

@[simp] theorem storeResult_wdt (d : Dest) (l : Loc) (v : Byte) (u : FlagUpdate) (s : State) :
    (storeResult d l v u s).wdt = s.wdt := by cases d <;> simp [storeResult]

@[simp] theorem storeResult_wdtPrescaler (d : Dest) (l : Loc) (v : Byte) (u : FlagUpdate) (s : State) :
    (storeResult d l v u s).wdtPrescaler = s.wdtPrescaler := by cases d <;> simp [storeResult]

@[simp] theorem storeResult_asleep (d : Dest) (l : Loc) (v : Byte) (u : FlagUpdate) (s : State) :
    (storeResult d l v u s).asleep = s.asleep := by cases d <;> simp [storeResult]

@[simp] theorem storeResult_wake (d : Dest) (l : Loc) (v : Byte) (u : FlagUpdate) (s : State) :
    (storeResult d l v u s).wake = s.wake := by cases d <;> simp [storeResult]

@[simp] theorem storeResult_portInputs (d : Dest) (l : Loc) (v : Byte) (u : FlagUpdate) (s : State) :
    (storeResult d l v u s).portInputs = s.portInputs := by cases d <;> simp [storeResult]

@[simp] theorem storeResult_draws (d : Dest) (l : Loc) (v : Byte) (u : FlagUpdate) (s : State) :
    (storeResult d l v u s).draws = s.draws := by cases d <;> simp [storeResult]

@[simp] theorem storeResult_env (d : Dest) (l : Loc) (v : Byte) (u : FlagUpdate) (s : State) :
    (storeResult d l v u s).env = s.env := by cases d <;> simp [storeResult]

/-! ### The state the boundary looks at -/

@[simp] theorem State.sampled_part (s : State) : s.sampled.part = s.part := by
  simp [State.sampled, State.dropInput]

@[simp] theorem State.sampled_prog (s : State) : s.sampled.prog = s.prog := by
  simp [State.sampled, State.dropInput]

@[simp] theorem State.sampled_pc (s : State) : s.sampled.pc = s.pc := by
  simp [State.sampled, State.dropInput]

@[simp] theorem State.sampled_w (s : State) : s.sampled.w = s.w := by
  simp [State.sampled, State.dropInput]

@[simp] theorem State.sampled_status (s : State) : s.sampled.status = s.status := by
  simp [State.sampled, State.dropInput]

@[simp] theorem State.sampled_pclath (s : State) : s.sampled.pclath = s.pclath := by
  simp [State.sampled, State.dropInput]

@[simp] theorem State.sampled_fsr (s : State) : s.sampled.fsr = s.fsr := by
  simp [State.sampled, State.dropInput]

@[simp] theorem State.sampled_optionReg (s : State) : s.sampled.optionReg = s.optionReg := by
  simp [State.sampled, State.dropInput]

@[simp] theorem State.sampled_ram (s : State) : s.sampled.ram = s.ram := by
  simp [State.sampled, State.dropInput]

@[simp] theorem State.sampled_stack (s : State) : s.sampled.stack = s.stack := by
  simp [State.sampled, State.dropInput]

@[simp] theorem State.sampled_asleep (s : State) : s.sampled.asleep = s.asleep := by
  simp [State.sampled, State.dropInput]

@[simp] theorem State.sampled_wake (s : State) : s.sampled.wake = s.wake := by
  simp [State.sampled, State.dropInput]

@[simp] theorem State.sampled_outputs (s : State) : s.sampled.outputs = s.outputs := by
  simp [State.sampled, State.dropInput]

@[simp] theorem State.sampled_portInputs (s : State) : s.sampled.portInputs = s.portInputs := by
  simp [State.sampled, State.dropInput]

@[simp] theorem State.sampled_draws (s : State) : s.sampled.draws = s.draws := by
  simp [State.sampled, State.dropInput]

@[simp] theorem State.sampled_env (s : State) : s.sampled.env = s.env.tail := by
  simp [State.sampled, State.dropInput]

@[simp] theorem State.sampled_intcon (s : State) :
    s.sampled.intcon = s.intcon ||| (s.nextBoundary.setFlags &&& flagMask s.part.irqSources) := by
  simp [State.sampled, State.dropInput]

/-- The enabled watchdog runs at every boundary (10_state.md R24). -/
theorem State.sampled_running {s : State} (h : s.part.wdte = true) :
    s.sampled.wdt = .running ∧ s.sampled.wdtPrescaler = .running := by
  simp [State.sampled, State.dropInput, h]

/-- The disabled watchdog keeps its value at every boundary (R24). -/
theorem State.sampled_disabled {s : State} (h : s.part.wdte = false) :
    s.sampled.wdt = s.wdt ∧ s.sampled.wdtPrescaler = s.wdtPrescaler := by
  simp [State.sampled, State.dropInput, h]

/-! ### The boundary and the step -/

/-- No external reset at the boundary. -/
theorem externalResetAt_none {b : Boundary} {s : State} (h : s.part.extReset = true → b.externalReset = none) :
    externalResetAt b s = none := by
  unfold externalResetAt
  split
  · next hp => exact h hp
  · rfl

/-- No watchdog time-out at the boundary. -/
theorem watchdogAt_none {b : Boundary} {s : State} (h : s.part.wdte = true → b.watchdog = none) :
    watchdogAt b s = none := by
  unfold watchdogAt
  split
  · next hp => exact h hp
  · rfl

/-- An external reset at the boundary is the whole step (60_exceptions.md R155). -/
theorem step_externalReset {s : State} {v : ResetValues} (hp : s.part.extReset = true)
    (hb : s.nextBoundary.externalReset = some v) : step s = .next (externalReset v s.sampled) := by
  have hx : externalResetAt s.nextBoundary (s.dropInput.sample s.nextBoundary) = some v := by
    simp [externalResetAt, hp, hb]
  simp only [step, atBoundary, hx]
  rfl

/-- A watchdog time-out at the boundary, without a reset, is the whole step (R155, R159). -/
theorem step_watchdog {s : State} {v : ResetValues} (hx : s.part.extReset = true → s.nextBoundary.externalReset = none)
    (hp : s.part.wdte = true) (hb : s.nextBoundary.watchdog = some v) :
    step s = .next (if s.asleep then watchdogWake s.sampled else watchdogReset v s.sampled) := by
  have hx' : externalResetAt s.nextBoundary s.sampled = none := externalResetAt_none (by simpa [State.sampled] using hx)
  have hw : watchdogAt s.nextBoundary s.sampled = some v := by simp [watchdogAt, State.sampled, hp, hb]
  have ha : s.sampled.asleep = s.asleep := by simp [State.sampled]
  have hs : s.dropInput.sample s.nextBoundary = s.sampled := rfl
  simp only [step, atBoundary, hs, hx', hw, ha]

/-- Without a reset and without a time-out: sleep, then interrupt entry, then the instruction at pc (R152, R155). -/
theorem step_of_noReset {s : State} (h : s.NoReset) :
    step s =
      if s.asleep then
        if s.irqSampled then .next (interruptWake s.sampled)
        else if s.env.isEmpty then .fault .stuckAsleep
        else .next s.sampled
      else if takesEntry s.irqSampled s.nextBoundary.admitEntry s.sampled then interruptEntry s.sampled
      else fetchExec (s.sampled.withWake s.wake.next) := by
  have hx : externalResetAt s.nextBoundary s.sampled = none := externalResetAt_none (by simpa [State.sampled] using h.1)
  have hw : watchdogAt s.nextBoundary s.sampled = none := watchdogAt_none (by simpa [State.sampled] using h.2)
  have hs : s.dropInput.sample s.nextBoundary = s.sampled := rfl
  have hi : irqPending s.nextBoundary.line s.sampled = s.irqSampled := rfl
  have ha : s.sampled.asleep = s.asleep := by simp [State.sampled]
  have hk : s.sampled.wake = s.wake := by simp [State.sampled]
  simp only [step, atBoundary, hs, hx, hw, boundaryBelowReset, hi, ha, hk]
  cases s.asleep <;> cases s.irqSampled <;> cases s.env.isEmpty <;>
    cases takesEntry _ s.nextBoundary.admitEntry s.sampled <;> rfl

/-- The cases of a step that has a next state (R155): an external reset; a watchdog time-out; a wake-up by
interrupt; the sleeping core going on sleeping; an interrupt entry; or one instruction. -/
theorem step_next {s t : State} (h : step s = .next t) :
    (∃ v, t = externalReset v s.sampled) ∨
    (∃ v, t = if s.asleep then watchdogWake s.sampled else watchdogReset v s.sampled) ∨
    (s.asleep = true ∧ (t = interruptWake s.sampled ∨ t = s.sampled)) ∨
    (s.asleep = false ∧ interruptEntry s.sampled = .next t) ∨
    (s.asleep = false ∧ ∃ i, fetchAt (s.sampled.withWake s.wake.next) s.pc = .ok i ∧
      exec i (s.sampled.withWake s.wake.next) = .next t) := by
  by_cases hx : s.part.extReset = true ∧ ∃ v, s.nextBoundary.externalReset = some v
  · obtain ⟨hp, v, hv⟩ := hx
    rw [step_externalReset hp hv] at h
    exact .inl ⟨v, (Host.Outcome.next.inj h).symm⟩
  have hx' : s.part.extReset = true → s.nextBoundary.externalReset = none := fun hp =>
    Option.eq_none_iff_forall_ne_some.mpr fun v hv => hx ⟨hp, v, hv⟩
  by_cases hw : s.part.wdte = true ∧ ∃ v, s.nextBoundary.watchdog = some v
  · obtain ⟨hp, v, hv⟩ := hw
    rw [step_watchdog hx' hp hv] at h
    exact .inr (.inl ⟨v, (Host.Outcome.next.inj h).symm⟩)
  have hno : s.NoReset := ⟨hx', fun hp => Option.eq_none_iff_forall_ne_some.mpr fun v hv => hw ⟨hp, v, hv⟩⟩
  rw [step_of_noReset hno] at h
  have hpc : (s.sampled.withWake s.wake.next).pc = s.pc := by simp [State.sampled]
  split at h
  · next ha =>
    refine .inr (.inr (.inl ⟨ha, ?_⟩))
    split at h
    · exact .inl (Host.Outcome.next.inj h).symm
    · split at h
      · cases h
      · exact .inr (Host.Outcome.next.inj h).symm
  · next ha =>
    simp only [Bool.not_eq_true] at ha
    split at h
    · exact .inr (.inr (.inr (.inl ⟨ha, h⟩)))
    · unfold fetchExec at h
      rw [hpc] at h
      split at h
      · cases h
      · next i hf => exact .inr (.inr (.inr (.inr ⟨ha, i, hf, h⟩)))

end Sys2Proof.Machine
end

