-- ==== Sys2Proof/Laws/Exec.lean ====
section
/-! SUPPORT. Everything an instruction that completes can have done, said once: one case per shape of meaning. -/

namespace Sys2Proof.Machine

/-- The instruction is no CALL, no GOTO and no return: pc goes on from where it stands, unless PCL is written. -/
def fallsThrough (i : Instr) : Prop := isCall i = false ∧ isGoto i = false ∧ isReturn i = false

/-- The flags an update writes. -/
def FlagUpdate.affected (u : FlagUpdate) : AffectedFlags := ⟨u.c.isSome, u.dc.isSome, u.z.isSome⟩

/-- What `exec i s = .next t` can have come from. -/
inductive Ran (i : Instr) (s t : State) : Prop where
  /-- An instruction `f,d`, or BCF or BSF (then d is F): the operand read, a result stored. -/
  | stored (f : FAddr) (d : Dest) (l : Loc) (v : Byte) (u : FlagUpdate)
      (hf : fileOperand i = some f) (hr : readsFile i = true) (ho : operand s f = some l)
      (hd : destination i s = if d = .f then some l else none) (hw : writesW i = decide (d = .w))
      (hk : fallsThrough i) (hs : isSkip i = false) (hu : affectedFlags i = u.affected)
      (ht : t = storeResult d l v u (afterRead l s))
  /-- DECFSZ or INCFSZ. -/
  | storedSkip (f : FAddr) (d : Dest) (l : Loc) (v : Byte) (taken : Bool)
      (hf : fileOperand i = some f) (hr : readsFile i = true) (ho : operand s f = some l)
      (hd : destination i s = if d = .f then some l else none) (hw : writesW i = decide (d = .w))
      (hk : fallsThrough i) (hs : isSkip i = true) (hu : affectedFlags i = noFlags.affected)
      (hp : ¬(d = .f ∧ l = .sfr .pcl))
      (ht : t = (storeResult d l v noFlags (afterRead l s)).skipIf taken)
  /-- CLRF or MOVWF: a value stored, nothing read. -/
  | written (f : FAddr) (l : Loc) (v : Byte) (u : FlagUpdate)
      (hf : fileOperand i = some f) (hr : readsFile i = false) (ho : operand s f = some l)
      (hd : destination i s = some l) (hw : writesW i = false)
      (hk : fallsThrough i) (hs : isSkip i = false) (hu : affectedFlags i = u.affected)
      (ht : t = storeResult .f l v u s)
  /-- BTFSC or BTFSS: the operand read, nothing stored. -/
  | tested (f : FAddr) (l : Loc) (taken : Bool)
      (hf : fileOperand i = some f) (hr : readsFile i = true) (ho : operand s f = some l)
      (hd : destination i s = none) (hw : writesW i = false)
      (hk : fallsThrough i) (hs : isSkip i = true) (hu : affectedFlags i = noFlags.affected)
      (ht : t = (afterRead l s).advance.skipIf taken)
  /-- CLRW, or a literal instruction with its result in W. -/
  | inW (v : Byte) (u : FlagUpdate)
      (hf : fileOperand i = none) (hd : destination i s = none) (hw : writesW i = true)
      (hk : fallsThrough i) (hs : isSkip i = false) (hu : affectedFlags i = u.affected)
      (ht : t = { s.advance with w := v }.withFlags u)
  | nop (hi : i = .nop) (ht : t = s.advance)
  | option (hi : i = .option) (ht : t = { s.advance with optionReg := s.w })
  | clrwdt (hi : i = .clrwdt) (ht : t = s.advance.clearWatchdog.withToPd true true)
  | sleep (hi : i = .sleep) (ht : t = { s.advance.clearWatchdog.withToPd true false with asleep := true })
  | ret (a : PAddr) (rest : List PAddr) (hi : i = .ret) (hs : s.stack = a :: rest)
      (ht : t = { s with stack := rest, pc := a })
  | retlw (k : Byte) (a : PAddr) (rest : List PAddr) (hi : i = .retlw k) (hs : s.stack = a :: rest)
      (ht : t = { s with w := k, stack := rest, pc := a })
  | retfie (a : PAddr) (rest : List PAddr) (hi : i = .retfie) (hs : s.stack = a :: rest)
      (ht : t = { s with stack := rest, pc := a }.withGie true)
  | call (k : BitVec 11) (hi : i = .call k) (hs : s.stack.length < s.part.stackDepth)
      (ht : t = { s with stack := (s.pc + 1) :: s.stack, pc := pageTarget s k })
  | goto (k : BitVec 11) (hi : i = .goto k) (ht : t = { s with pc := pageTarget s k })

/-- An `f,d` instruction that completed. -/
theorem Ran.of_computeFd {i : Instr} {s t : State} {c : Byte → Byte → Bool → Byte × FlagUpdate} {f : FAddr} {d : Dest}
    (h : computeFd c f d s = .next t) (hf : fileOperand i = some f) (hr : readsFile i = true)
    (hd : destination i s = if d = .f then operand s f else none) (hw : writesW i = decide (d = .w))
    (hk : fallsThrough i) (hs : isSkip i = false) (hu : ∀ m w x, affectedFlags i = (c m w x).2.affected) : Ran i s t := by
  obtain ⟨l, ho, ht⟩ := computeFd_next h
  exact .stored f d l _ _ hf hr ho (by rw [hd, ho]) hw hk hs (hu _ _ _) ht

/-- DECFSZ or INCFSZ that completed. -/
theorem Ran.of_computeFdSkip {i : Instr} {s t : State} {c : Byte → Byte} {f : FAddr} {d : Dest}
    (h : computeFdSkip c f d s = .next t) (hf : fileOperand i = some f) (hr : readsFile i = true)
    (hd : destination i s = if d = .f then operand s f else none) (hw : writesW i = decide (d = .w))
    (hk : fallsThrough i) (hs : isSkip i = true) (hu : affectedFlags i = noFlags.affected) : Ran i s t := by
  obtain ⟨l, ho, hp, ht⟩ := computeFdSkip_next h
  exact .storedSkip f d l _ _ hf hr ho (by rw [hd, ho]) hw hk hs hu hp ht

/-- BCF or BSF that completed. -/
theorem Ran.of_changeBit {i : Instr} {s t : State} {x : Bool} {f : FAddr} {b : BitVec 3}
    (h : changeBit x f b s = .next t) (hf : fileOperand i = some f) (hr : readsFile i = true)
    (hd : destination i s = operand s f) (hw : writesW i = false)
    (hk : fallsThrough i) (hs : isSkip i = false) (hu : affectedFlags i = noFlags.affected) : Ran i s t := by
  obtain ⟨l, ho, ht⟩ := changeBit_next h
  exact .stored f .f l _ _ hf hr ho (by rw [hd, ho]; rfl) hw hk hs hu ht

/-- BTFSC or BTFSS that completed. -/
theorem Ran.of_skipOnBit {i : Instr} {s t : State} {x : Bool} {f : FAddr} {b : BitVec 3}
    (h : skipOnBit x f b s = .next t) (hf : fileOperand i = some f) (hr : readsFile i = true)
    (hd : destination i s = none) (hw : writesW i = false)
    (hk : fallsThrough i) (hs : isSkip i = true) (hu : affectedFlags i = noFlags.affected) : Ran i s t := by
  obtain ⟨l, ho, ht⟩ := skipOnBit_next h
  exact .tested f l _ hf hr ho hd hw hk hs hu ht

/-- CLRF or MOVWF that completed. -/
theorem Ran.of_writeOnly {i : Instr} {s t : State} {v : Byte} {u : FlagUpdate} {f : FAddr}
    (h : writeOnly v u f s = .next t) (hf : fileOperand i = some f) (hr : readsFile i = false)
    (hd : destination i s = operand s f) (hw : writesW i = false)
    (hk : fallsThrough i) (hs : isSkip i = false) (hu : affectedFlags i = u.affected) : Ran i s t := by
  obtain ⟨l, ho, ht⟩ := writeOnly_next h
  exact .written f l v u hf hr ho (by rw [hd, ho]) hw hk hs hu ht

/-- An instruction with its result in W. -/
theorem Ran.of_resultInW {i : Instr} {s t : State} {v : Byte} {u : FlagUpdate}
    (h : resultInW v u s = .next t) (hf : fileOperand i = none) (hd : destination i s = none) (hw : writesW i = true)
    (hk : fallsThrough i) (hs : isSkip i = false) (hu : affectedFlags i = u.affected) : Ran i s t :=
  .inW v u hf hd hw hk hs hu (Host.Outcome.next.inj h).symm

/-- Everything a completed instruction can have done. -/
theorem exec_next {i : Instr} {s t : State} (h : exec i s = .next t) : Ran i s t := by
  have k3 : ∀ {j : Instr}, isCall j = false → isGoto j = false → isReturn j = false → fallsThrough j :=
    fun a b c => ⟨a, b, c⟩
  cases i with
  | nop => exact .nop rfl (Host.Outcome.next.inj h).symm
  | option => exact .option rfl (Host.Outcome.next.inj h).symm
  | clrwdt => exact .clrwdt rfl (Host.Outcome.next.inj h).symm
  | sleep => exact .sleep rfl (Host.Outcome.next.inj h).symm
  | ret =>
    obtain ⟨a, rest, hs, ht⟩ := returnFromStack_next h
    exact .ret a rest rfl hs ht
  | retlw k =>
    obtain ⟨a, rest, hs, ht⟩ := returnFromStack_next h
    exact .retlw k a rest rfl hs ht
  | retfie =>
    obtain ⟨a, rest, hs, ht⟩ := returnFromInterrupt_next h
    exact .retfie a rest rfl hs ht
  | call k => exact .call k rfl (execCall_next h).1 (execCall_next h).2
  | goto k => exact .goto k rfl (Host.Outcome.next.inj h).symm
  | clrw => exact .of_resultInW h rfl rfl rfl (k3 rfl rfl rfl) rfl rfl
  | movlw k => exact .of_resultInW h rfl rfl rfl (k3 rfl rfl rfl) rfl rfl
  | iorlw k => exact .of_resultInW h rfl rfl rfl (k3 rfl rfl rfl) rfl rfl
  | andlw k => exact .of_resultInW h rfl rfl rfl (k3 rfl rfl rfl) rfl rfl
  | xorlw k => exact .of_resultInW h rfl rfl rfl (k3 rfl rfl rfl) rfl rfl
  | sublw k => exact .of_resultInW h rfl rfl rfl (k3 rfl rfl rfl) rfl rfl
  | addlw k => exact .of_resultInW h rfl rfl rfl (k3 rfl rfl rfl) rfl rfl
  | btfsc f b => exact .of_skipOnBit h rfl rfl rfl rfl (k3 rfl rfl rfl) rfl rfl
  | btfss f b => exact .of_skipOnBit h rfl rfl rfl rfl (k3 rfl rfl rfl) rfl rfl
  | bcf f b => exact .of_changeBit h rfl rfl rfl rfl (k3 rfl rfl rfl) rfl rfl
  | bsf f b => exact .of_changeBit h rfl rfl rfl rfl (k3 rfl rfl rfl) rfl rfl
  | movwf f => exact .of_writeOnly h rfl rfl rfl rfl (k3 rfl rfl rfl) rfl rfl
  | clrf f => exact .of_writeOnly h rfl rfl rfl rfl (k3 rfl rfl rfl) rfl rfl
  | decfsz f d =>
    simp only [exec, execDecfsz] at h
    exact .of_computeFdSkip h rfl rfl (by cases d <;> rfl) (by cases d <;> rfl) (k3 rfl rfl rfl) rfl rfl
  | incfsz f d =>
    simp only [exec, execIncfsz] at h
    exact .of_computeFdSkip h rfl rfl (by cases d <;> rfl) (by cases d <;> rfl) (k3 rfl rfl rfl) rfl rfl
  | _ f d =>
    simp only [exec, execSubwf, execDecf, execIorwf, execAndwf, execXorwf, execAddwf, execMovf, execComf, execIncf,
      execRrf, execRlf, execSwapf] at h
    exact .of_computeFd h rfl rfl (by cases d <;> rfl) (by cases d <;> rfl) (k3 rfl rfl rfl) rfl (fun _ _ _ => rfl)

end Sys2Proof.Machine
end

