-- ==== Sys2Proof/Laws/PerInstr.lean ====
section
/-! SUPPORT. One lemma per instruction: its word lies in its own row of the opcode table (30_encoding.md R66, R75). -/

namespace Sys2Proof.Laws.CanonicalWord

/-- The word written for an instruction is matched by the instruction's row of R66. -/
def Statement (i : Instr) : Prop := (opcodeRow i).matches (encode i) = true

/-- A word lies in a row if it does so bit by bit. -/
theorem row_of_bits {r : OpcodeRow} {w : IWord}
    (h : ∀ j : Fin 14, (w.getLsbD j && r.mask.getLsbD j) = r.pattern.getLsbD j) : r.matches w = true := by
  simp only [OpcodeRow.matches, beq_iff_eq]
  apply BitVec.eq_of_getLsbD_eq
  intro i hi
  simpa using h ⟨i, hi⟩

theorem nop : Statement .nop := rfl

theorem ret : Statement .ret := rfl

theorem retfie : Statement .retfie := rfl

theorem option : Statement .option := rfl

theorem sleep : Statement .sleep := rfl

theorem clrwdt : Statement .clrwdt := rfl

theorem movwf (f : FAddr) : Statement (.movwf f) :=
  row_of_bits fun j => by fin_cases j <;> simp [encode, encodeFields, opcodeRow]

theorem clrw : Statement .clrw := rfl

theorem clrf (f : FAddr) : Statement (.clrf f) :=
  row_of_bits fun j => by fin_cases j <;> simp [encode, encodeFields, opcodeRow]

theorem subwf (f : FAddr) (d : Dest) : Statement (.subwf f d) :=
  row_of_bits fun j => by fin_cases j <;> simp [encode, encodeFields, opcodeRow]

theorem decf (f : FAddr) (d : Dest) : Statement (.decf f d) :=
  row_of_bits fun j => by fin_cases j <;> simp [encode, encodeFields, opcodeRow]

theorem iorwf (f : FAddr) (d : Dest) : Statement (.iorwf f d) :=
  row_of_bits fun j => by fin_cases j <;> simp [encode, encodeFields, opcodeRow]

theorem andwf (f : FAddr) (d : Dest) : Statement (.andwf f d) :=
  row_of_bits fun j => by fin_cases j <;> simp [encode, encodeFields, opcodeRow]

theorem xorwf (f : FAddr) (d : Dest) : Statement (.xorwf f d) :=
  row_of_bits fun j => by fin_cases j <;> simp [encode, encodeFields, opcodeRow]

theorem addwf (f : FAddr) (d : Dest) : Statement (.addwf f d) :=
  row_of_bits fun j => by fin_cases j <;> simp [encode, encodeFields, opcodeRow]

theorem movf (f : FAddr) (d : Dest) : Statement (.movf f d) :=
  row_of_bits fun j => by fin_cases j <;> simp [encode, encodeFields, opcodeRow]

theorem comf (f : FAddr) (d : Dest) : Statement (.comf f d) :=
  row_of_bits fun j => by fin_cases j <;> simp [encode, encodeFields, opcodeRow]

theorem incf (f : FAddr) (d : Dest) : Statement (.incf f d) :=
  row_of_bits fun j => by fin_cases j <;> simp [encode, encodeFields, opcodeRow]

theorem decfsz (f : FAddr) (d : Dest) : Statement (.decfsz f d) :=
  row_of_bits fun j => by fin_cases j <;> simp [encode, encodeFields, opcodeRow]

theorem rrf (f : FAddr) (d : Dest) : Statement (.rrf f d) :=
  row_of_bits fun j => by fin_cases j <;> simp [encode, encodeFields, opcodeRow]

theorem rlf (f : FAddr) (d : Dest) : Statement (.rlf f d) :=
  row_of_bits fun j => by fin_cases j <;> simp [encode, encodeFields, opcodeRow]

theorem swapf (f : FAddr) (d : Dest) : Statement (.swapf f d) :=
  row_of_bits fun j => by fin_cases j <;> simp [encode, encodeFields, opcodeRow]

theorem incfsz (f : FAddr) (d : Dest) : Statement (.incfsz f d) :=
  row_of_bits fun j => by fin_cases j <;> simp [encode, encodeFields, opcodeRow]

theorem bcf (f : FAddr) (b : BitVec 3) : Statement (.bcf f b) :=
  row_of_bits fun j => by fin_cases j <;> simp [encode, encodeFields, opcodeRow]

theorem bsf (f : FAddr) (b : BitVec 3) : Statement (.bsf f b) :=
  row_of_bits fun j => by fin_cases j <;> simp [encode, encodeFields, opcodeRow]

theorem btfsc (f : FAddr) (b : BitVec 3) : Statement (.btfsc f b) :=
  row_of_bits fun j => by fin_cases j <;> simp [encode, encodeFields, opcodeRow]

theorem btfss (f : FAddr) (b : BitVec 3) : Statement (.btfss f b) :=
  row_of_bits fun j => by fin_cases j <;> simp [encode, encodeFields, opcodeRow]

theorem call (k : BitVec 11) : Statement (.call k) :=
  row_of_bits fun j => by fin_cases j <;> simp [encode, encodeFields, opcodeRow]

theorem goto (k : BitVec 11) : Statement (.goto k) :=
  row_of_bits fun j => by fin_cases j <;> simp [encode, encodeFields, opcodeRow]

theorem movlw (k : Byte) : Statement (.movlw k) :=
  row_of_bits fun j => by fin_cases j <;> simp [encode, encodeFields, opcodeRow]

theorem retlw (k : Byte) : Statement (.retlw k) :=
  row_of_bits fun j => by fin_cases j <;> simp [encode, encodeFields, opcodeRow]

theorem iorlw (k : Byte) : Statement (.iorlw k) :=
  row_of_bits fun j => by fin_cases j <;> simp [encode, encodeFields, opcodeRow]

theorem andlw (k : Byte) : Statement (.andlw k) :=
  row_of_bits fun j => by fin_cases j <;> simp [encode, encodeFields, opcodeRow]

theorem xorlw (k : Byte) : Statement (.xorlw k) :=
  row_of_bits fun j => by fin_cases j <;> simp [encode, encodeFields, opcodeRow]

theorem sublw (k : Byte) : Statement (.sublw k) :=
  row_of_bits fun j => by fin_cases j <;> simp [encode, encodeFields, opcodeRow]

theorem addlw (k : Byte) : Statement (.addlw k) :=
  row_of_bits fun j => by fin_cases j <;> simp [encode, encodeFields, opcodeRow]

end Sys2Proof.Laws.CanonicalWord
end

