-- ==== Sys2Proof/Tests/Slice0.lean ====
section
/-! SUPPORT. Tests: words written out from 30_encoding.md R66 and what they decode to; an ill-formed term for each check
of WellFormed; single steps with the expected values of 95_test_vectors.md (V1 to V156, E-...); and, for every
obligation with hypotheses, a state that meets them. -/

namespace Sys2Proof.Tests

open Sys2Proof Sys2Proof.Machine

set_option maxRecDepth 4000

/-! ### Decoding: one word per constructor, its bits as 30_encoding.md R66 prints them -/

theorem test_decode_control :
    decode 0b00_0000_0000_0000 = some .nop ∧ decode 0b00_0000_0000_1000 = some .ret ∧
    decode 0b00_0000_0000_1001 = some .retfie ∧ decode 0b00_0000_0110_0010 = some .option ∧
    decode 0b00_0000_0110_0011 = some .sleep ∧ decode 0b00_0000_0110_0100 = some .clrwdt ∧
    decode 0b00_0001_0000_0000 = some .clrw := by decide

theorem test_decode_byte_f :
    decode 0b00_0000_1_0001111 = some (.movwf 0x0F) ∧ decode 0b00_0001_1_0000101 = some (.clrf 0x05) := by decide

theorem test_decode_byte_fd :
    decode 0b00_0010_1_0100000 = some (.subwf 0x20 .f) ∧ decode 0b00_0011_1_0001111 = some (.decf 0x0F .f) ∧
    decode 0b00_0100_0_0000101 = some (.iorwf 0x05 .w) ∧ decode 0b00_0101_0_0000011 = some (.andwf 0x03 .w) ∧
    decode 0b00_0110_1_0100000 = some (.xorwf 0x20 .f) ∧ decode 0b00_0111_0_0000101 = some (.addwf 0x05 .w) ∧
    decode 0b00_1000_1_0000101 = some (.movf 0x05 .f) ∧ decode 0b00_1001_1_0000101 = some (.comf 0x05 .f) ∧
    decode 0b00_1010_1_0001111 = some (.incf 0x0F .f) ∧ decode 0b00_1011_1_0001111 = some (.decfsz 0x0F .f) ∧
    decode 0b00_1100_1_0100000 = some (.rrf 0x20 .f) ∧ decode 0b00_1101_1_0100000 = some (.rlf 0x20 .f) ∧
    decode 0b00_1110_0_0100000 = some (.swapf 0x20 .w) ∧ decode 0b00_1111_1_0001111 = some (.incfsz 0x0F .f) := by
  decide

theorem test_decode_bit :
    decode 0b01_00_111_0000011 = some (.bcf 0x03 7) ∧ decode 0b01_01_101_0000011 = some (.bsf 0x03 5) ∧
    decode 0b01_10_010_0000011 = some (.btfsc 0x03 2) ∧ decode 0b01_11_111_1111111 = some (.btfss 0x7F 7) := by decide

theorem test_decode_call_goto :
    decode 0b10_0_00000010000 = some (.call 0x010) ∧ decode 0b10_1_11111111111 = some (.goto 0x7FF) := by decide

theorem test_decode_literal :
    decode 0b11_0000_10101000 = some (.movlw 0xA8) ∧ decode 0b11_0100_01000100 = some (.retlw 0x44) ∧
    decode 0b11_1000_11110000 = some (.iorlw 0xF0) ∧ decode 0b11_1001_11110000 = some (.andlw 0xF0) ∧
    decode 0b11_1010_10101111 = some (.xorlw 0xAF) ∧ decode 0b11_1100_00000010 = some (.sublw 0x02) ∧
    decode 0b11_1110_00011011 = some (.addlw 0x1B) := by decide

/-- The don't-care bits of R68: V10, V29, V91, V99, V103, V109, V136. -/
theorem test_decode_dont_care :
    decode 0x0020 = some .nop ∧ decode 0x0040 = some .nop ∧ decode 0x0060 = some .nop ∧ decode 0x0103 = some .clrw ∧
    decode 0x017F = some .clrw ∧ decode 0x33A8 = some (.movlw 0xA8) ∧ decode 0x3744 = some (.retlw 0x44) ∧
    decode 0x3D02 = some (.sublw 0x02) ∧ decode 0x3F01 = some (.addlw 0x01) := by decide

/-- V131 to V134, V140, V143: words and a container that are none. -/
theorem test_decode_undefined :
    decode 0x0001 = none ∧ decode 0x0010 = none ∧ decode 0x0065 = none ∧ decode 0x0066 = none ∧
    decode 0x0067 = none ∧ decode 0x007F = none ∧ decode 0x3B00 = none ∧ decode 0x3BFF = none ∧
    decodeContainer 0x4000 = none := by decide

/-- The words of R73 (`MOVFW f` is `0x0800 + f`), R75 and of a `MOVF` without d (R74). -/
theorem test_encode :
    encode (Instr.movfw 0x05) = 0x0805 ∧ encode (.movf 0x05 Dest.omitted) = 0x0885 ∧ encode (.bsf 0x05 7) = 0x1785 ∧
    encode (.goto (assembleTarget 0x0803)) = 0x2803 ∧ encodeContainer (.sublw 0x02) = 0x3C02 ∧
    decodeTableWord 14 0x3EE5 = some (.addlw 0xE5) := by decide

/-! ### WellFormed: what each check refuses -/

theorem smoke_container : wfContainer 0x4000 = false ∧ wfContainer 0x0001 = false ∧ wfContainer 0x3FFF = true := by
  decide

theorem smoke_progWords :
    { referencePart with progWords := 0 }.wfProgWords = false ∧
    { referencePart with progWords := 8193 }.wfProgWords = false ∧
    { referencePart with progWords := 8192 }.wfProgWords = true := by decide

theorem smoke_stackDepth :
    { referencePart with stackDepth := 0 }.wfStackDepth = false ∧
    { referencePart with stackDepth := 1 }.wfStackDepth = true := by decide

/-- A map with nothing at PORTA's address. -/
theorem smoke_sourceAddresses :
    { referencePart with deviceMap := ⟨0x05, 0x05, .unimplemented⟩ :: referenceMap }.wfSourceAddresses = false ∧
    referencePart.wfSourceAddresses = true := by decide

/-- A map with a general-purpose register at FSR's address in Bank 1. -/
theorem smoke_coreAddresses :
    { referencePart with deviceMap := ⟨0x84, 0x84, .gpr⟩ :: referenceMap }.wfCoreAddresses = false ∧
    referencePart.wfCoreAddresses = true := by decide

/-- Maps with a mirror of a mirror, of INDF, and of nothing. -/
theorem smoke_mirrors :
    { referencePart with deviceMap := ⟨0x0C, 0x0C, .mirror 0x80⟩ :: referenceMap }.wfMirrorAt 0x0C = false ∧
    { referencePart with deviceMap := ⟨0x90, 0x90, .mirror 0x90⟩ :: referenceMap }.wfMirrorAt 0x90 = false ∧
    { referencePart with deviceMap := ⟨0x90, 0x90, .mirror 0x10⟩ :: referenceMap }.wfMirrorAt 0x90 = false ∧
    referencePart.wfMirrors = true := by decide

/-! ### Single steps -/

/-- The start of the vectors: pc = 0x0010, PCLATH = 0, the reference map; W, F[0x20] and STATUS as given. -/
def start (w f status : Byte) : State :=
  { State.reset with pc := 0x0010, w := w, ram := ramSet [] 0x20 f, status := status }

/-- One step on the word at pc has a next state, and `p` holds of it. -/
def goes (word : Nat) (s : State) (p : State → Bool) : Bool :=
  match step (s.withFetchWord 14 word) with
  | .next t => p t
  | .fault _ => false
  | .refused _ => false

/-- One step on the word at pc is the fault `r`. -/
def faults (word : Nat) (s : State) (r : Fault) : Bool :=
  match step (s.withFetchWord 14 word) with
  | .next _ => false
  | .fault x => x == r
  | .refused _ => false

/-- One step on the word at pc is the refusal `r`. -/
def refuses (word : Nat) (s : State) (r : Refusal) : Bool :=
  match step (s.withFetchWord 14 word) with
  | .next _ => false
  | .fault _ => false
  | .refused x => x == r

/-- W, F[0x20], STATUS and pc of a state. -/
def holds (w f status : Byte) (pc : PAddr) (t : State) : Bool :=
  t.w == w && ramGet t.ram 0x20 == f && t.status == status && t.pc == pc

/-- V2: wrap, C, DC and Z; V53: STATUS as destination. -/
theorem test_addwf :
    goes 0x07A0 (start 0x01 0xFF 0x18) (holds 0x01 0x00 0x1F 0x0011) = true ∧
    goes 0x0783 (start 0x20 0 0x18) (holds 0x20 0 0x38 0x0011) = true := by decide

/-- V56: ADDWF PCL,1, the carry does not reach pc bit 8. -/
theorem test_addwf_pcl :
    goes 0x0782 { start 0x02 0 0x18 with pc := 0x00FE } (holds 0x02 0 0x1B 0x0001) = true := by decide

/-- V6, V7. -/
theorem test_andwf :
    goes 0x05A0 (start 0x17 0xC2 0x18) (holds 0x17 0x02 0x18 0x0011) = true ∧
    goes 0x0520 (start 0x0F 0xF0 0x19) (holds 0x00 0xF0 0x1D 0x0011) = true := by decide

/-- V8, V50. -/
theorem test_clrf :
    goes 0x01A0 (start 0x11 0x5A 0x18) (holds 0x11 0x00 0x1C 0x0011) = true ∧
    goes 0x0183 (start 0x11 0x5A 0x3B) (holds 0x11 0x5A 0x1F 0x0011) = true := by decide

/-- V9. -/
theorem test_clrw : goes 0x0100 (start 0x5A 0x22 0x18) (holds 0x00 0x22 0x1C 0x0011) = true := by decide

/-- V11, V12. -/
theorem test_comf :
    goes 0x0920 (start 0 0x13 0x18) (holds 0xEC 0x13 0x18 0x0011) = true ∧
    goes 0x09A0 (start 0x33 0xFF 0x18) (holds 0x33 0x00 0x1C 0x0011) = true := by decide

/-- V14: the wrap touches neither C nor DC. -/
theorem test_decf : goes 0x03A0 (start 0x44 0x00 0x1F) (holds 0x44 0xFF 0x1B 0x0011) = true := by decide

/-- V16, V18. -/
theorem test_decfsz :
    goes 0x0BA0 (start 0x77 0x01 0x18) (holds 0x77 0x00 0x18 0x0012) = true ∧
    goes 0x0B20 (start 0x77 0x01 0x18) (holds 0x00 0x01 0x18 0x0012) = true := by decide

/-- V19. -/
theorem test_incf : goes 0x0AA0 (start 0x44 0xFF 0x18) (holds 0x44 0x00 0x1C 0x0011) = true := by decide

/-- V21, V22. -/
theorem test_incfsz :
    goes 0x0FA0 (start 0x44 0xFF 0x18) (holds 0x44 0x00 0x18 0x0012) = true ∧
    goes 0x0FA0 (start 0x44 0x00 0x18) (holds 0x44 0x01 0x18 0x0011) = true := by decide

/-- V23. -/
theorem test_iorwf : goes 0x0420 (start 0x91 0x13 0x18) (holds 0x93 0x13 0x18 0x0011) = true := by decide

/-- V26; V55: MOVF PCL,0 reads the low byte of pc + 1. -/
theorem test_movf :
    goes 0x08A0 (start 0x33 0x80 0x1C) (holds 0x33 0x80 0x18 0x0011) = true ∧
    goes 0x0802 { start 0x33 0x80 0x18 with pc := 0x01FF } (holds 0x00 0x80 0x1C 0x0200) = true := by decide

/-- V27, V51. -/
theorem test_movwf :
    goes 0x00A0 (start 0x55 0 0x1C) (holds 0x55 0x55 0x1C 0x0011) = true ∧
    goes 0x0083 (start 0xFF 0x22 0x00) (holds 0xFF 0x22 0xE7 0x0011) = true := by decide

/-- V28. -/
theorem test_nop : goes 0x0000 (start 0x01 0x02 0x1F) (holds 0x01 0x02 0x1F 0x0011) = true := by decide

/-- V30, V32. -/
theorem test_rlf :
    goes 0x0DA0 (start 0x44 0xE6 0x18) (holds 0x44 0xCC 0x19 0x0011) = true ∧
    goes 0x0D20 (start 0x44 0x00 0x19) (holds 0x01 0x00 0x18 0x0011) = true := by decide

/-- V33, V35. -/
theorem test_rrf :
    goes 0x0CA0 (start 0x44 0xE6 0x18) (holds 0x44 0x73 0x18 0x0011) = true ∧
    goes 0x0CA0 (start 0x44 0x00 0x19) (holds 0x44 0x80 0x18 0x0011) = true := by decide

/-- V36, V38: F minus W. -/
theorem test_subwf :
    goes 0x02A0 (start 0x01 0x10 0x18) (holds 0x01 0x0F 0x19 0x0011) = true ∧
    goes 0x0220 (start 0x01 0x00 0x1F) (holds 0xFF 0x00 0x18 0x0011) = true := by decide

/-- V41, E-SWAPF. -/
theorem test_swapf :
    goes 0x0EA0 (start 0x44 0x0F 0x1C) (holds 0x44 0xF0 0x1C 0x0011) = true ∧
    goes 0x0E20 (start 0x44 0xA5 0x18) (holds 0x5A 0xA5 0x18 0x0011) = true := by decide

/-- E-XORWF. -/
theorem test_xorwf : goes 0x06A0 (start 0xB5 0xAF 0x18) (holds 0xB5 0x1A 0x18 0x0011) = true := by decide

/-- V60, V61, V62: INDF through FSR, through itself, and through a mirrored address. -/
theorem test_indf :
    goes 0x0080 { start 0x77 0 0x18 with fsr := 0x20 } (holds 0x77 0x77 0x18 0x0011) = true ∧
    goes 0x0800 { start 0x77 0 0x18 with fsr := 0x00 } (holds 0x00 0 0x1C 0x0011) = true ∧
    goes 0x0800 { start 0x77 0x5C 0x18 with fsr := 0xA0 } (holds 0x5C 0x5C 0x18 0x0011) = true := by decide

/-- V57, V63, V64: PCLATH keeps five bits; f = 0x01 is OPTION_REG in Bank 1 and TMR0 in Bank 0. -/
theorem test_core_registers :
    goes 0x008A (start 0xFF 0 0x18) (fun t => t.pclath == 0x1F) = true ∧
    goes 0x0081 { start 0x87 0 0x38 with optionReg := 0 } (fun t => t.optionReg == 0x87 && t.outputs == []) = true ∧
    goes 0x0081 { start 0x87 0 0x18 with optionReg := 0 }
      (fun t => t.optionReg == 0 && t.outputs == [⟨.tmr0, 0x01, 0x87⟩]) = true := by decide

/-- V58, V59: the refusals of an instruction. -/
theorem test_refusals :
    refuses 0x0B82 (start 0 0 0x18) .undefinedCombination = true ∧
    refuses 0x0807 (start 0 0 0x18) .unimplementedFile = true := by decide

/-- E-BSF without its premise: one read, whose value the environment gives, and one output event. -/
theorem test_bsf_port :
    goes 0x1785 { start 0 0 0x18 with portInputs := [0x0A, 0x55] }
      (fun t => t.outputs == [⟨.porta, 0x05, 0x8A⟩] && t.portInputs == [0x55] && t.draws == 1) = true := by decide

/-- V70, E-BCF. -/
theorem test_bcf :
    goes 0x13A0 (start 0x44 0xC7 0x18) (holds 0x44 0x47 0x18 0x0011) = true ∧
    goes 0x1383 (start 0x44 0xC7 0x98) (holds 0x44 0xC7 0x18 0x0011) = true := by decide

/-- V72, V76. -/
theorem test_bsf :
    goes 0x17A0 (start 0x44 0x0A 0x18) (holds 0x44 0x8A 0x18 0x0011) = true ∧
    goes 0x1583 (start 0x44 0x0A 0x10) (holds 0x44 0x0A 0x10 0x0011) = true := by decide

/-- V78, V79. -/
theorem test_btfsc :
    goes 0x1BA0 (start 0x44 0x7F 0x18) (holds 0x44 0x7F 0x18 0x0012) = true ∧
    goes 0x1BA0 (start 0x44 0x80 0x18) (holds 0x44 0x80 0x18 0x0011) = true := by decide

/-- V81, V82. -/
theorem test_btfss :
    goes 0x1D20 (start 0x44 0x04 0x18) (holds 0x44 0x04 0x18 0x0012) = true ∧
    goes 0x1D20 (start 0x44 0xFB 0x18) (holds 0x44 0xFB 0x18 0x0011) = true := by decide

/-- V92, V90. -/
theorem test_addlw :
    goes 0x3E08 (start 0x08 0x22 0x18) (holds 0x10 0x22 0x1A 0x0011) = true ∧
    goes 0x3E01 (start 0xFF 0x22 0x18) (holds 0x00 0x22 0x1F 0x0011) = true := by decide

/-- E-ANDLW. -/
theorem test_andlw : goes 0x39F0 (start 0xA3 0x22 0x18) (holds 0xA0 0x22 0x18 0x0011) = true := by decide

/-- V96. -/
theorem test_iorlw : goes 0x3835 (start 0x9A 0x22 0x18) (holds 0xBF 0x22 0x18 0x0011) = true := by decide

/-- V98: Z unchanged. -/
theorem test_movlw : goes 0x3000 (start 0x55 0x22 0x18) (holds 0x00 0x22 0x18 0x0011) = true := by decide

/-- V100, V102: literal minus W. -/
theorem test_sublw :
    goes 0x3C10 (start 0x01 0x22 0x18) (holds 0x0F 0x22 0x19 0x0011) = true ∧
    goes 0x3C00 (start 0x01 0x22 0x1F) (holds 0xFF 0x22 0x18 0x0011) = true := by decide

/-- E-XORLW. -/
theorem test_xorlw : goes 0x3AAF (start 0xB5 0x22 0x18) (holds 0x1A 0x22 0x18 0x0011) = true := by decide

/-- V105. -/
theorem test_clrwdt :
    goes 0x0064 { start 0 0x22 0x07 with wdt := .running, wdtPrescaler := .running }
      (fun t => holds 0 0x22 0x1F 0x0011 t && t.wdt == .cleared && t.wdtPrescaler == .cleared) = true := by decide

/-- V106. -/
theorem test_sleep :
    goes 0x0063 (start 0 0x22 0x1F) (fun t => holds 0 0x22 0x17 0x0011 t && t.asleep) = true := by decide

/-- V107. -/
theorem test_option :
    goes 0x0062 (start 0x87 0x22 0x18) (fun t => holds 0x87 0x22 0x18 0x0011 t && t.optionReg == 0x87) = true := by
  decide

/-- V112, V113. -/
theorem test_retfie :
    goes 0x0009 { start 0 0x22 0x18 with stack := [0x0123], intcon := 0x10 }
      (fun t => t.pc == 0x0123 && t.stack == [] && t.intcon == 0x90) = true ∧
    faults 0x0009 (start 0 0 0x18) .stackUnderflow = true := by decide

/-- V108. -/
theorem test_retlw :
    goes 0x3444 { start 0 0x22 0x18 with stack := [0x0002] }
      (fun t => holds 0x44 0x22 0x18 0x0002 t && t.stack == []) = true := by decide

/-- V110, V111. -/
theorem test_return :
    goes 0x0008 { start 0 0x22 0x18 with stack := [0x0802] }
      (fun t => t.pc == 0x0802 && t.pclath == 0 && t.stack == []) = true ∧
    faults 0x0008 (start 0 0 0x18) .stackUnderflow = true := by decide

/-- V122, V123. -/
theorem test_call :
    goes 0x2010 { start 0 0x22 0x18 with pclath := 0x08, stack := [0x0005] }
      (fun t => t.pc == 0x0810 && t.stack == [0x0011, 0x0005] && t.pclath == 0x08) = true ∧
    faults 0x2010 { start 0 0 0x18 with stack := [0, 1, 2, 3, 4, 5, 6, 7] } .stackOverflow = true := by decide

/-- V124, V125. -/
theorem test_goto :
    goes 0x2803 { start 0 0x22 0x18 with pclath := 0x08 } (fun t => t.pc == 0x0803) = true ∧
    goes 0x2803 { start 0 0x22 0x18 with pclath := 0x07 } (fun t => t.pc == 0x0003) = true := by decide

/-- V131, V140, V155: what the fetch refuses. -/
theorem test_fetch :
    refuses 0x0001 (start 0 0 0x18) .undefinedOpcode = true ∧
    refuses 0x3B00 (start 0 0 0x18) .undefinedOpcode = true ∧
    refuses 0x0000 { start 0 0 0x18 with pc := 0x0400 } .fetchOutsideProgram = true := by decide

/-- The state of V150: INTE and INTF, GIE set. -/
def interrupted : State :=
  { State.reset with pc := 0x0123, intcon := 0x92, w := 0x5A, status := 0x3D, pclath := 0x08, prog := [(0x0123, 0x0000)] }

/-- V150, V151, V152, V153. -/
theorem test_interrupt :
    goes 0x0000 interrupted (fun t => t.intcon == 0x12 && t.stack == [0x0123] && holds 0x5A 0 0x3D 0x0004 t) = true ∧
    goes 0x0000 { interrupted with intcon := 0x12 } (fun t => t.pc == 0x0124 && t.intcon == 0x12) = true ∧
    goes 0x0000 { interrupted with intcon := 0x82 } (fun t => t.pc == 0x0124) = true ∧
    faults 0x0000 { interrupted with stack := [0, 1, 2, 3, 4, 5, 6, 7] } .stackOverflow = true := by decide

/-- The state of V156: asleep at 0x0007 with INTE; the environment sets INTF at the coming boundary. -/
def sleeper : State :=
  { State.reset with
    pc := 0x0007, intcon := 0x10, status := 0x10, asleep := true, env := [{ quietBoundary with setFlags := 0x02 }] }

/-- V156; and without an event the sleeping core is stuck (U17). -/
theorem test_wake_up :
    goes 0x0000 sleeper (fun t => t.asleep == false && t.intcon == 0x12 && t.pc == 0x0007) = true ∧
    faults 0x0000 { sleeper with env := [] } .stuckAsleep = true := by decide

/-- A part with the watchdog and the external reset enabled. -/
def watchedPart : Part := { referencePart with wdte := true, extReset := true }

/-- What the environment gives the registers a reset leaves open. -/
def someReset : ResetValues := { fsr := 0x77, zdc := 0b101, intcon0 := true }

/-- 70_reset_and_hazards.md R171, its four rows after the first: awake, TO and PD unchanged; asleep, 1 and 0; a watchdog
reset; a watchdog wake-up. -/
theorem test_resets :
    goes 0x0000 { interrupted with part := watchedPart, env := [{ quietBoundary with externalReset := some someReset }] }
      (fun t => holds 0x5A 0 0x1D 0x0000 t && t.intcon == 0x01 && t.fsr == 0x77) = true ∧
    goes 0x0000 { sleeper with part := watchedPart, env := [{ quietBoundary with externalReset := some someReset }] }
      (fun t => t.status == 0x15 && t.pc == 0x0000 && t.asleep == false) = true ∧
    goes 0x0000 { interrupted with part := watchedPart, env := [{ quietBoundary with watchdog := some someReset }] }
      (fun t => holds 0x5A 0 0x0D 0x0000 t && t.optionReg == 0xFF) = true ∧
    goes 0x0000 { sleeper with part := watchedPart, env := [{ quietBoundary with watchdog := some someReset }] }
      (fun t => t.status == 0x00 && t.pc == 0x0007 && t.asleep == false) = true := by decide

/-- R159: PD is 0 after a watchdog reset where it was 0 (log 19); R151: a flag bit set at the boundary of a time-out
that wakes the core stays set, the watchdog running (log 25). -/
theorem test_time_out :
    goes 0x0000 { interrupted with
        part := watchedPart, status := 0x13, env := [{ quietBoundary with watchdog := some someReset }] }
      (fun t => t.status == 0x05) = true ∧
    goes 0x0000 { sleeper with
        part := watchedPart, intcon := 0x10, env := [{ quietBoundary with watchdog := some someReset, setFlags := 0x02 }] }
      (fun t => t.intcon == 0x12 && t.asleep == false && t.wdt == .running) = true := by decide

/-! ### Witnesses: each obligation with hypotheses has a state that meets them -/

/-- The core about to run the word `c` at 0x0010, W = 0x05, one entry on the stack. -/
def ready (c : Container) : State := { start 0x05 0x03 0x18 with prog := [(0x0010, c)], stack := [0x0123] }

/-- `step` answers a next state. -/
def Steps (s : State) : Prop := ∃ t, step s = .next t

/-- An instruction that is about to run is about to run: the fetch of NOP, of a word that is none, and of CLRWDT with
the watchdog enabled. For StepRunsTheDecodedInstruction, UndefinedWordsAreRefused, WatchdogClearedJustAfterAClear. -/
theorem witness_will_fetch :
    ((ready 0x0000).WillFetch ∧ (ready 0x0000).pc.toNat < (ready 0x0000).part.progWords ∧
      progGet (ready 0x0000).prog (ready 0x0000).pc.toNat = some 0x0000 ∧ decodeContainer 0x0000 = some .nop) ∧
    ((ready 0x007F).WillFetch ∧ progGet (ready 0x007F).prog (ready 0x007F).pc.toNat = some 0x007F ∧
      UndefinedWord 0x0001 ∧ UndefinedWord 0x007F ∧ UndefinedWord 0x3B00 ∧ UndefinedWord 0x3BFF) ∧
    ({ ready 0x0064 with part := watchedPart }.WillFetch ∧ watchedPart.wdte = true ∧
      decodeContainer 0x0064 = some .clrwdt ∧ Steps { ready 0x0064 with part := watchedPart }) := by
  refine ⟨⟨⟨⟨by decide, by decide⟩, by decide, by decide⟩, by decide, by decide, by decide⟩,
    ⟨⟨⟨by decide, by decide⟩, by decide, by decide⟩, by decide, .inl (by decide), .inl (by decide), .inr (by decide),
      .inr (by decide)⟩,
    ⟨⟨by decide, by decide⟩, by decide, by decide⟩, by decide, by decide, ⟨_, rfl⟩⟩

/-- FetchOutsideProgramIsRefused: the first address outside the program, and the last inside with no word stored. -/
theorem witness_fetch :
    ({ ready 0x0000 with pc := 0x0400 }.WillFetch ∧ referencePart.progWords ≤ (0x0400 : PAddr).toNat) ∧
    ({ ready 0x0000 with pc := 0x03FF }.WillFetch ∧ (0x03FF : PAddr).toNat < referencePart.progWords ∧
      progGet (ready 0x0000).prog 0x03FF = none) :=
  ⟨⟨⟨⟨by decide, by decide⟩, by decide, by decide⟩, by decide⟩,
    ⟨⟨by decide, by decide⟩, by decide, by decide⟩, by decide, by decide⟩

/-- ContainerAbove14BitsIsNoWord: both sides of the boundary. -/
theorem witness_container : (0x3FFF : Container).toNat < 2 ^ 14 ∧ 2 ^ 14 ≤ (0x4000 : Container).toNat := by decide

/-- StepKeepsInvariant, StepKeepsProgramAndPart: a state with the invariant that steps, awake and asleep. -/
theorem witness_invariant :
    ((ready 0x00A0).Inv ∧ Steps (ready 0x00A0)) ∧ (sleeper.Inv ∧ Steps sleeper) := by
  refine ⟨⟨⟨by decide, ?_, by decide, by decide, by decide⟩, ⟨_, rfl⟩⟩,
    ⟨⟨by decide, ?_, by decide, by decide, by decide⟩, ⟨_, rfl⟩⟩⟩ <;> decide

/-- StepStopsOnlyAsListed: a refusal and each of the three faults happen. -/
theorem witness_stops :
    step (ready 0x0001) = .refused .undefinedOpcode ∧
    step { ready 0x2010 with stack := [0, 1, 2, 3, 4, 5, 6, 7] } = .fault .stackOverflow ∧
    step { ready 0x0008 with stack := [] } = .fault .stackUnderflow ∧
    step { sleeper with env := [] } = .fault .stuckAsleep := ⟨rfl, rfl, rfl, rfl⟩

/-- UnimplementedFileIsRefused. -/
theorem witness_unimplemented :
    fileOperand (.movf 0x07 .w) = some 0x07 ∧ operand (ready 0) 0x07 = none ∧ operand (ready 0) 0x50 = none := by decide

/-- Every statement about an implemented operand: the first and the last general-purpose register, STATUS, PCL, a port,
and INDF reached through itself; in Bank 1 a mirror. -/
theorem witness_operand :
    operand (ready 0) 0x0C = some (.ram 0x0C) ∧ operand (ready 0) 0x4F = some (.ram 0x4F) ∧
    operand (ready 0) 0x03 = some (.sfr .status) ∧ operand (ready 0) 0x02 = some (.sfr .pcl) ∧
    operand (ready 0) 0x05 = some (.port .porta 0x05) ∧ operand (ready 0) 0x00 = some .null ∧
    operand { ready 0 with status := 0x38 } 0x4F = some (.ram 0x4F) ∧
    operand { ready 0 with status := 0x38 } 0x01 = some (.sfr .optionReg) := by decide

/-- DecfszAndIncfszComplete: a destination that is not PCL, and PCL read with the result in W. -/
theorem witness_decfsz :
    ¬(Dest.f = .f ∧ Loc.ram 0x20 = .sfr .pcl) ∧ ¬(Dest.w = .f ∧ Loc.sfr .pcl = .sfr .pcl) := by decide

/-- ReadByClassOfAddress, WriteByClassOfAddress, ComputedJump, BankSelect, CoreRegistersAtTheirAddresses: the reference
part is well formed, its map has every class, and the empty memory is canonical. -/
theorem witness_classes :
    referencePart.wf = true ∧ Memory.wf [] = true ∧
    classOf referencePart 0x0C = .gpr ∧ classOf referencePart 0xCF = .mirror 0x4F ∧
    classOf referencePart 0x83 = .core .status ∧ classOf referencePart 0x82 = .core .pcl ∧
    classOf referencePart 0x8A = .core .pclath ∧ classOf referencePart 0x84 = .core .fsr ∧
    classOf referencePart 0x8B = .core .intcon ∧ classOf referencePart 0x81 = .core .optionReg ∧
    classOf referencePart 0x80 = .indf ∧ classOf referencePart 0x89 = .peripheral .eecon2 ∧
    classOf referencePart 0xFF = .unimplemented ∧ (0x38 : Byte).getLsbD 5 = true ∧ (0x18 : Byte).getLsbD 5 = false := by
  decide

/-- ReturnsComplete, CallAndGotoComplete, InterruptEntryEffect: the last entry popped and none; the last place filled and
none left. -/
theorem witness_stack :
    (ready 0).stack = [0x0123] ∧ (start 0 0 0).stack = [] ∧
    ([0, 1, 2, 3, 4, 5, 6] : List PAddr).length < referencePart.stackDepth ∧
    referencePart.stackDepth ≤ ([0, 1, 2, 3, 4, 5, 6, 7] : List PAddr).length := by decide

/-- ReturnGoesBackToTheCaller, RetfieUndoesInterruptEntry: the state right after the CALL, or after the entry. -/
theorem witness_return :
    (∃ t u : State, exec (.call 0x010) (ready 0) = .next t ∧ u.stack = t.stack) ∧
    (∃ t u : State, interruptEntry (ready 0) = .next t ∧ u.stack = t.stack) := ⟨⟨_, _, rfl, rfl⟩, ⟨_, _, rfl, rfl⟩⟩

/-- ExecChangesOnlyWhatItWrites, FlagsChangeOnlyAsListed, ToAndPdOnlyByClrwdtAndSleep: MOVWF of a general-purpose
register completes; it is none of the excepted instructions, writes that register alone, and reads no file. -/
theorem witness_frame :
    (∃ t, exec (.movwf 0x4F) (ready 0) = .next t) ∧ destination (.movwf 0x4F) (ready 0) = some (.ram 0x4F) ∧
    writesW (.movwf 0x4F) = false ∧ readsFile (.movwf 0x4F) = false ∧ isCall (.movwf 0x4F) = false ∧
    isReturn (.movwf 0x4F) = false ∧ affectedFlags (.movwf 0x4F) = ⟨false, false, false⟩ ∧
    (Instr.movwf 0x4F ≠ .clrwdt ∧ Instr.movwf 0x4F ≠ .sleep ∧ Instr.movwf 0x4F ≠ .retfie) ∧
    (∃ t, exec .clrwdt (ready 0) = .next t) ∧ (∃ t, exec .sleep (ready 0) = .next t) :=
  ⟨⟨_, rfl⟩, by decide, rfl, rfl, rfl, rfl, rfl, by decide, ⟨_, rfl⟩, ⟨_, rfl⟩⟩

/-- PcAfterAnInstruction, CycleCounts: one instruction of each kind completes, a skip both ways. -/
theorem witness_kinds :
    (∃ t, exec .nop (ready 0) = .next t) ∧
    (∃ t, exec (.btfsc 0x20 7) (ready 0) = .next t ∧ t.pc.toNat = ((ready 0).pc.toNat + 2) % 8192) ∧
    (∃ t, exec (.btfsc 0x20 0) (ready 0) = .next t ∧ t.pc.toNat = ((ready 0).pc.toNat + 1) % 8192) ∧
    (∃ t, exec (.goto 0x7FF) (ready 0) = .next t) ∧ (∃ t, exec (.call 0x7FF) (ready 0) = .next t) ∧
    (∃ t, exec .ret (ready 0) = .next t) ∧
    (∃ t, exec (.movwf 0x02) (ready 0) = .next t) ∧ destination (.movwf 0x02) (ready 0) = some (.sfr .pcl) :=
  ⟨⟨_, rfl⟩, ⟨_, rfl, by decide⟩, ⟨_, rfl, by decide⟩, ⟨_, rfl⟩, ⟨_, rfl⟩, ⟨_, rfl⟩, ⟨_, rfl⟩, by decide⟩

/-- InterruptTakenAtTheBoundary: taken; and not taken for want of GIE, of a request, or of the environment's leave. -/
theorem witness_interrupt :
    (interrupted.NoReset ∧ interrupted.asleep = false ∧ interrupted.wake = .idle ∧ interrupted.sampled.gie = true ∧
      interrupted.irqSampled = true ∧ interrupted.nextBoundary.admitEntry = true) ∧
    { interrupted with intcon := 0x12 }.sampled.gie = false ∧ { interrupted with intcon := 0x82 }.irqSampled = false ∧
    { interrupted with env := [{ quietBoundary with admitEntry := false }] }.nextBoundary.admitEntry = false :=
  ⟨⟨⟨by decide, by decide⟩, by decide, by decide, by decide, by decide, by decide⟩, by decide, by decide, by decide⟩

/-- ReferenceInterruptRequest. -/
theorem witness_irqSources : State.reset.part.irqSources = referenceIrqSources := rfl

/-- WakeUpByInterrupt: asleep with a request; then the instruction first; then the entry due, with the request still
pending, with the request withdrawn, and without GIE. -/
theorem witness_wake_up :
    (sleeper.NoReset ∧ sleeper.asleep = true ∧ sleeper.irqSampled = true) ∧
    ({ interrupted with wake := .instrFirst }.NoReset ∧ interrupted.asleep = false) ∧
    ({ interrupted with wake := .entryDue }.NoReset ∧ { interrupted with wake := .entryDue }.sampled.gie = true ∧
      { interrupted with wake := .entryDue }.irqSampled = true) ∧
    ({ interrupted with wake := .entryDue, intcon := 0x82 }.sampled.gie = true ∧
      { interrupted with wake := .entryDue, intcon := 0x82 }.irqSampled = false) ∧
    { interrupted with wake := .entryDue, intcon := 0x12 }.sampled.gie = false :=
  ⟨⟨⟨by decide, by decide⟩, by decide, by decide⟩, ⟨⟨by decide, by decide⟩, by decide⟩,
    ⟨⟨by decide, by decide⟩, by decide, by decide⟩, ⟨by decide, by decide⟩, by decide⟩

/-- SleepRetainsCoreState, AsleepWithoutEventIsStuck: asleep with no request, with nothing scheduled and with a boundary
that does not wake it. -/
theorem witness_asleep :
    ({ sleeper with env := [] }.NoReset ∧ sleeper.asleep = true ∧ { sleeper with env := [] }.irqSampled = false) ∧
    ({ sleeper with env := [quietBoundary] }.NoReset ∧ { sleeper with env := [quietBoundary] }.irqSampled = false ∧
      [quietBoundary] ≠ [] ∧ Steps { sleeper with env := [quietBoundary] }) ∧ sleeper.part.extReset = false :=
  ⟨⟨⟨by decide, by decide⟩, by decide, by decide⟩, ⟨⟨by decide, by decide⟩, by decide, by decide, ⟨_, rfl⟩⟩, by decide⟩

/-- WatchdogTimeOut: a time-out scheduled on a part with the watchdog, awake and asleep, and on one without. -/
theorem witness_watchdog :
    let b : Boundary := { quietBoundary with watchdog := some someReset }
    let s : State := { ready 0x0000 with part := watchedPart, env := [b] }
    (s.nextBoundary.externalReset = none ∧ s.nextBoundary.watchdog = some someReset ∧ s.part.wdte = true ∧
      s.asleep = false ∧ s.status.getLsbD 3 = true) ∧
    { s with asleep := true }.asleep = true ∧
    ({ s with part := referencePart }.part.wdte = false ∧ { s with part := referencePart }.irqSampled = false ∧
      s.wake = .idle) := by decide

/-- WatchdogClearedJustAfterAClear: SLEEP runs (CLRWDT: `witness_will_fetch`); an interrupt entry; an external reset; a
time-out awake and asleep, all with the watchdog enabled; and a part without it. -/
theorem witness_watchdogCleared :
    (Steps { ready 0x0063 with part := watchedPart } ∧ { ready 0x0063 with part := watchedPart }.asleep = false ∧
      decodeContainer 0x0063 = some .sleep) ∧
    (Steps { interrupted with part := watchedPart } ∧
      takesEntry { interrupted with part := watchedPart }.irqSampled true
        { interrupted with part := watchedPart }.sampled = true) ∧
    Steps { ready 0 with part := watchedPart, env := [{ quietBoundary with externalReset := some someReset }] } ∧
    Steps { ready 0 with part := watchedPart, env := [{ quietBoundary with watchdog := some someReset }] } ∧
    Steps { sleeper with part := watchedPart, env := [{ quietBoundary with watchdog := some someReset }] } ∧
    (Steps (ready 0) ∧ (ready 0).part.wdte = false ∧ (ready 0).wdt = .cleared) :=
  ⟨⟨⟨_, rfl⟩, by decide, by decide⟩, ⟨⟨_, rfl⟩, by decide⟩, ⟨_, rfl⟩, ⟨_, rfl⟩, ⟨_, rfl⟩, ⟨_, rfl⟩, by decide, by decide⟩

/-- ExternalReset: scheduled on a part that allows it, awake and asleep. -/
theorem witness_externalReset :
    let b : Boundary := { quietBoundary with externalReset := some someReset }
    let s : State := { ready 0x0000 with part := watchedPart, env := [b] }
    s.part.extReset = true ∧ s.nextBoundary.externalReset = some someReset ∧ s.asleep = false ∧
    { s with asleep := true }.asleep = true := by decide

/-! ### Assembler syntax -/

/-- The number forms of R72: 27 in its four spellings, the literal `0A8` of its `MOVLW 0A8`, and the quote left open. -/
theorem test_numbers :
    readNumber ['h', '\'', '1', 'B', '\''] = some 27 ∧ readNumber ['d', '\'', '2', '7', '\''] = some 27 ∧
    readNumber ['b', '\'', '0', '0', '0', '1', '1', '0', '1', '1', '\''] = some 27 ∧
    readNumber ['0', '1', 'B'] = some 27 ∧ readNumber ['0', 'A', '8'] = some 0xA8 ∧
    readNumber ['h', '\'', '0', '1'] = none := by decide

/-- `T ADDWF PC,1`, a comment line, `P EQU h'05'`, `MOVFW P`, `MOVF P`, `GOTO T`, from address 4: words by R66, R71 to R75
(AssembledProgramDecodes). -/
theorem test_assemble :
    assemble 4
      [['T', ' ', 'A', 'D', 'D', 'W', 'F', ' ', 'P', 'C', ',', '1', ' ', ';', 'x'], [';'],
        ['P', ' ', 'E', 'Q', 'U', ' ', 'h', '\'', '0', '5', '\''], [' ', 'M', 'O', 'V', 'F', 'W', ' ', 'P'],
        [' ', 'M', 'O', 'V', 'F', ' ', 'P'], [' ', 'G', 'O', 'T', 'O', ' ', 'T']] =
      some [(4, 0x0782), (5, 0x0805), (6, 0x0885), (7, 0x2804)] := by decide

end Sys2Proof.Tests
end

section
/-! PROOFS. The boundary of a sleeping core (00_scope.md R8, 60_exceptions.md R160, 93_implementation_defined.md U17). -/

namespace Sys2Proof.Proofs.Sleep

open Sys2Proof.Machine

/-- With no request to wake it, what a sleeping core does turns on the schedule alone (log 21). -/
theorem step_of_asleep_unrequested {s : State} (hno : s.NoReset) (hasleep : s.asleep = true)
    (hirq : s.irqSampled = false) :
    step s = if s.env.isEmpty then .fault .stuckAsleep else .next s.sampled := by
  rw [step_of_noReset hno, if_pos hasleep, if_neg (Bool.eq_false_iff.mp hirq)]

/-- Settles O55, by whether the schedule holds an entry for this boundary. -/
theorem asleepWithoutEventIsStuck : Obligations.AsleepWithoutEventIsStuck := by
  intro s hno hasleep hirq
  have hstep := step_of_asleep_unrequested hno hasleep hirq
  constructor
  · intro hempty
    rw [hstep, if_pos (List.isEmpty_iff.mpr hempty)]
  · intro hscheduled
    rw [hstep, if_neg (mt List.isEmpty_iff.mp hscheduled)]

end Sys2Proof.Proofs.Sleep
end

section
/-! PROOFS. Rules the statements of 10_state.md share: a STATUS bit after each kind of write, and each field of the
state after a result is stored (10_state.md R16, R18, R31; 20_memory.md R43; 40_byte_oriented.md R80, R81). -/

namespace Sys2Proof.Proofs.StoreRules

open Sys2Proof Sys2Proof.Machine

/-! ### pc -/

/-- The next sequential address, as R18 writes it. -/
theorem pc_add_one (p : PAddr) : p + 1 = BitVec.ofNat 13 ((p.toNat + 1) % 8192) := by
  apply BitVec.eq_of_toNat_eq
  simp [BitVec.toNat_add]

theorem pc_add_one_toNat (p : PAddr) : (p + 1).toNat = (p.toNat + 1) % 8192 := by
  simp [BitVec.toNat_add]

/-- The address a write of PCL makes: PCLATH selects a block of 256 words (R19). -/
theorem pclath_append_toNat (h : BitVec 5) (v : Byte) : (h ++ v).toNat = 256 * h.toNat + v.toNat := by
  rw [BitVec.toNat_append, ← Nat.shiftLeft_add_eq_or_of_lt v.isLt, Nat.shiftLeft_eq]
  omega

/-- The target of CALL and GOTO in numbers: PCLATH[4:3] selects a page of 2048 words (43_call_goto.md R141, R142). -/
theorem pageTarget_toNat (s : State) (k : BitVec 11) :
    (pageTarget s k).toNat = 2048 * (s.pclath.toNat / 8) + k.toNat := by
  have hh := s.pclath.isLt
  rw [pageTarget, BitVec.toNat_append, ← Nat.shiftLeft_add_eq_or_of_lt k.isLt, Nat.shiftLeft_eq,
    BitVec.extractLsb'_toNat, Nat.shiftRight_eq_div_pow]
  omega

/-! ### STATUS -/

/-- Each bit of STATUS after a file write, before the flags: TO and PD are not writable, bits 7:5 take the value, bits
2:0 only where no flag is affected (R31). -/
theorem statusAfterFileWrite_getLsbD (u : FlagUpdate) (v old : Byte) (j : Nat) :
    (statusAfterFileWrite u v old).getLsbD j =
      if j = bitTO ∨ j = bitPD then old.getLsbD j
      else if 5 ≤ j ∨ u.affectsNone then v.getLsbD j
      else old.getLsbD j := by
  by_cases hj : j < 8
  · unfold statusAfterFileWrite bitTO bitPD
    cases u.affectsNone <;> interval_cases j <;> simp
  · have hge : 8 ≤ j := Nat.le_of_not_lt hj
    simp [BitVec.getLsbD_of_ge _ j hge]

/-- Only an update without any flag affects none. -/
theorem affectsNone_iff (u : FlagUpdate) : u.affectsNone = true ↔ u = ⟨none, none, none⟩ := by
  obtain ⟨c, dc, z⟩ := u
  simp [FlagUpdate.affectsNone, and_assoc]

/-- The flags are bits 2:0 of STATUS. -/
theorem applyFlags_getLsbD_high (u : FlagUpdate) (b : Byte) {j : Nat} (hj : 3 ≤ j) :
    (applyFlags u b).getLsbD j = b.getLsbD j := by
  rw [applyFlags_getLsbD, if_neg (by unfold bitZ; omega), if_neg (by unfold bitDC; omega),
    if_neg (by unfold bitC; omega)]

theorem applyFlags_c (u : FlagUpdate) (b : Byte) : (applyFlags u b).getLsbD 0 = u.c.getD (b.getLsbD 0) :=
  applyFlags_getLsbD u b 0

theorem applyFlags_dc (u : FlagUpdate) (b : Byte) : (applyFlags u b).getLsbD 1 = u.dc.getD (b.getLsbD 1) :=
  applyFlags_getLsbD u b 1

theorem applyFlags_z (u : FlagUpdate) (b : Byte) : (applyFlags u b).getLsbD 2 = u.z.getD (b.getLsbD 2) :=
  applyFlags_getLsbD u b 2

/-! ### A stored result, field by field -/

section

variable (d : Dest) (l : Loc) (v : Byte) (u : FlagUpdate) (s : State)

theorem storeResult_wReg : (storeResult d l v u s).w = if d = .w then v else s.w := by
  cases d <;> simp [storeResult]

theorem storeResult_pc :
    (storeResult d l v u s).pc = if d = .f ∧ l = .sfr .pcl then s.pclath ++ v else s.pc + 1 := by
  cases d <;> simp [storeResult, writeLoc_pc]

theorem storeResult_status :
    (storeResult d l v u s).status =
      applyFlags u (if d = .f ∧ l = .sfr .status then statusAfterFileWrite u v s.status else s.status) := by
  cases d <;> simp [storeResult, writeLoc_status]

theorem storeResult_pclath :
    (storeResult d l v u s).pclath = if d = .f ∧ l = .sfr .pclath then v.extractLsb' 0 5 else s.pclath := by
  cases d <;> simp [storeResult, writeLoc_pclath]

theorem storeResult_fsr :
    (storeResult d l v u s).fsr = if d = .f ∧ l = .sfr .fsr then v else s.fsr := by
  cases d <;> simp [storeResult, writeLoc_fsr]

theorem storeResult_intcon :
    (storeResult d l v u s).intcon = if d = .f ∧ l = .sfr .intcon then v else s.intcon := by
  cases d <;> simp [storeResult, writeLoc_intcon]

theorem storeResult_optionReg :
    (storeResult d l v u s).optionReg = if d = .f ∧ l = .sfr .optionReg then v else s.optionReg := by
  cases d <;> simp [storeResult, writeLoc_optionReg]

/-- A stored result leaves data memory as it was, or is a store at its destination. -/
theorem storeResult_ram :
    (storeResult d l v u s).ram = s.ram ∨
      ∃ a, d = .f ∧ l = .ram a ∧ (storeResult d l v u s).ram = ramSet s.ram a.toNat v := by
  cases d with
  | w => exact .inl rfl
  | f =>
    cases l with
    | ram a => exact .inr ⟨a, rfl, rfl, rfl⟩
    | sfr r => cases r <;> exact .inl rfl
    | null => exact .inl rfl
    | port n a => exact .inl rfl

theorem storeResult_outputs (h : ∀ n a, ¬(d = .f ∧ l = .port n a)) :
    (storeResult d l v u s).outputs = s.outputs := by
  cases d with
  | w => rfl
  | f => simpa [storeResult] using writeLoc_outputs u l v s.advance fun n a hl => h n a ⟨rfl, hl⟩

end

end Sys2Proof.Proofs.StoreRules
end

section
/-! PROOFS. The frame of the 36 instructions, one lemma per piece of state: the case split is that of `Ran`, the shapes
of meaning (10_state.md R10, R15, R16, R18, R31, R33; 20_memory.md R47; 43_call_goto.md R140). -/

namespace Sys2Proof.Proofs.Frame

open Sys2Proof Sys2Proof.Machine Sys2Proof.Proofs.StoreRules

variable {i : Instr} {s t : State}

/-! ### What no instruction changes -/

theorem exec_part (h : exec i s = .next t) : t.part = s.part := by
  cases exec_next h <;> simp [*]

theorem exec_prog (h : exec i s = .next t) : t.prog = s.prog := by
  cases exec_next h <;> simp [*]

theorem exec_env (h : exec i s = .next t) : t.env = s.env := by
  cases exec_next h <;> simp [*]

theorem exec_wake (h : exec i s = .next t) : t.wake = s.wake := by
  cases exec_next h <;> simp [*]

/-! ### W and the destination -/

theorem exec_wReg (h : exec i s = .next t) (hw : writesW i = false) : t.w = s.w := by
  cases exec_next h <;> simp_all [storeResult_wReg, writesW]

/-- Data memory after an instruction: as it was, or one store at the destination, which is then a file operand. -/
theorem exec_ram (h : exec i s = .next t) :
    t.ram = s.ram ∨ ∃ f a v, operand s f = some (.ram a) ∧ destination i s = some (.ram a) ∧
      t.ram = ramSet s.ram a.toNat v := by
  have stored : ∀ (f : FAddr) (d : Dest) (l : Loc) (v : Byte) (u : FlagUpdate) (r : State), r.ram = s.ram →
      operand s f = some l → destination i s = (if d = .f then some l else none) →
      t.ram = (storeResult d l v u r).ram → t.ram = s.ram ∨
        ∃ f a v, operand s f = some (.ram a) ∧ destination i s = some (.ram a) ∧ t.ram = ramSet s.ram a.toNat v := by
    intro f d l v u r hr ho hd ht
    rcases storeResult_ram d l v u r with hsame | ⟨a, hdf, hl, hset⟩
    · exact .inl (by rw [ht, hsame, hr])
    · exact .inr ⟨f, a, v, by rw [ho, hl], by rw [hd, if_pos hdf, hl], by rw [ht, hset, hr]⟩
  cases exec_next h with
  | stored f d l v u _ _ ho hd _ _ _ _ ht => exact stored f d l v u _ (afterRead_ram l s) ho hd (by rw [ht])
  | storedSkip f d l v taken _ _ ho hd _ _ _ _ _ ht =>
    exact stored f d l v noFlags _ (afterRead_ram l s) ho hd (by rw [ht, State.skipIf_ram])
  | written f l v u _ _ ho hd _ _ _ _ ht => exact stored f .f l v u s rfl ho hd (by rw [ht])
  | _ => exact .inl (by simp [*])

theorem exec_ramGet (h : exec i s = .next t) {n : Nat} (hn : ∀ a, destination i s = some (.ram a) → n ≠ a.toNat) :
    ramGet t.ram n = ramGet s.ram n := by
  rcases exec_ram h with hsame | ⟨_, a, v, -, hd, hset⟩
  · rw [hsame]
  · rw [hset, ramGet_ramSet_other _ _ _ (hn a hd)]

theorem exec_pclath (h : exec i s = .next t) (hd : destination i s ≠ some (.sfr .pclath)) : t.pclath = s.pclath := by
  cases exec_next h <;> simp_all [storeResult_pclath]

theorem exec_fsr (h : exec i s = .next t) (hd : destination i s ≠ some (.sfr .fsr)) : t.fsr = s.fsr := by
  cases exec_next h <;> simp_all [storeResult_fsr]

theorem exec_optionReg (h : exec i s = .next t) (hd : destination i s ≠ some (.sfr .optionReg)) :
    t.optionReg = s.optionReg := by
  cases exec_next h <;> simp_all [storeResult_optionReg, destination]

theorem exec_intcon (h : exec i s = .next t) (hd : destination i s ≠ some (.sfr .intcon)) (hi : i ≠ .retfie) :
    t.intcon = s.intcon := by
  cases exec_next h <;> simp_all [storeResult_intcon]

theorem exec_outputs (h : exec i s = .next t) (hd : ∀ n a, destination i s ≠ some (.port n a)) :
    t.outputs = s.outputs := by
  cases exec_next h <;> simp_all [storeResult_outputs]

/-- The peripheral inputs move only where the instruction reads a peripheral register (10_state.md R28). -/
theorem exec_portInputs_draws (h : exec i s = .next t)
    (hr : ∀ f n a, fileOperand i = some f → readsFile i = true → operand s f ≠ some (.port n a)) :
    t.portInputs = s.portInputs ∧ t.draws = s.draws := by
  have noPort : ∀ f l, fileOperand i = some f → readsFile i = true → operand s f = some l → afterRead l s = s :=
    fun f l hf hri ho => afterRead_eq_self (fun n a hl => hr f n a hf hri (hl ▸ ho)) s
  cases exec_next h with
  | stored f d l v u hf hri ho _ _ _ _ _ ht => rw [ht, noPort f l hf hri ho]; simp
  | storedSkip f d l v taken hf hri ho _ _ _ _ _ _ ht => rw [ht, noPort f l hf hri ho]; simp
  | tested f l taken hf hri ho _ _ _ _ _ ht => rw [ht, noPort f l hf hri ho]; simp
  | _ => simp [*]

/-! ### Stack, watchdog, sleep -/

theorem exec_stack (h : exec i s = .next t) (hc : isCall i = false) (hr : isReturn i = false) : t.stack = s.stack := by
  cases exec_next h <;> simp_all [isCall, isReturn]

theorem exec_wdt (h : exec i s = .next t) (hc : i ≠ .clrwdt) (hs : i ≠ .sleep) :
    t.wdt = s.wdt ∧ t.wdtPrescaler = s.wdtPrescaler := by
  cases exec_next h <;> simp_all

theorem exec_asleep (h : exec i s = .next t) (hs : i ≠ .sleep) : t.asleep = s.asleep := by
  cases exec_next h <;> simp_all

/-- Settles O44, field by field. -/
theorem execChangesOnlyWhatItWrites : Obligations.ExecChangesOnlyWhatItWrites := fun _ _ _ h =>
  ⟨⟨exec_part h, exec_prog h, exec_env h, exec_wake h⟩, exec_wReg h, fun _ => exec_ramGet h, exec_pclath h, exec_fsr h,
    exec_optionReg h, exec_intcon h, exec_outputs h, exec_portInputs_draws h, exec_stack h, exec_wdt h, exec_asleep h⟩

end Sys2Proof.Proofs.Frame
end

section
/-! PROOFS. STATUS and pc after an instruction (10_state.md R14 to R16, R18, R19, R31; 43_call_goto.md R140). -/

namespace Sys2Proof.Proofs.StatusAndPc

open Sys2Proof Sys2Proof.Machine Sys2Proof.Proofs.StoreRules Sys2Proof.Proofs.Frame

variable {i : Instr} {s t : State}

/-! ### STATUS -/

/-- An instruction leaves STATUS as it was apart from the flags of R16, with the bits of R31 if STATUS is its destination;
CLRWDT and SLEEP write TO and PD instead. -/
theorem exec_status (h : exec i s = .next t) (hc : i ≠ .clrwdt) (hs : i ≠ .sleep) :
    ∃ u, affectedFlags i = u.affected ∧
      (t.status = applyFlags u s.status ∨
        ∃ v, destination i s = some (.sfr .status) ∧ t.status = applyFlags u (statusAfterFileWrite u v s.status)) := by
  have stored : ∀ (d : Dest) (l : Loc) (b : Byte) (u : FlagUpdate) (r : State), r.status = s.status →
      destination i s = (if d = .f then some l else none) → t.status = (storeResult d l b u r).status →
      t.status = applyFlags u s.status ∨
        ∃ v, destination i s = some (.sfr .status) ∧ t.status = applyFlags u (statusAfterFileWrite u v s.status) := by
    intro d l b u r hr hd ht
    rw [storeResult_status, hr] at ht
    split at ht
    · next hdl => exact .inr ⟨b, by rw [hd, if_pos hdl.1, hdl.2], ht⟩
    · exact .inl ht
  cases exec_next h with
  | stored f d l v u _ _ _ hd _ _ _ hu ht => exact ⟨u, hu, stored d l v u _ (afterRead_status l s) hd (by rw [ht])⟩
  | storedSkip f d l v taken _ _ _ hd _ _ _ hu _ ht =>
    exact ⟨noFlags, hu, stored d l v noFlags _ (afterRead_status l s) hd (by rw [ht]; rfl)⟩
  | written f l v u _ _ _ hd _ _ _ hu ht => exact ⟨u, hu, stored .f l v u s rfl hd (by rw [ht])⟩
  | inW v u _ _ _ _ _ hu ht => exact ⟨u, hu, .inl (by rw [ht]; rfl)⟩
  | tested f l taken _ _ _ _ _ _ _ hu ht => exact ⟨noFlags, hu, .inl (by simp [ht])⟩
  | clrwdt hi => exact absurd hi hc
  | sleep hi => exact absurd hi hs
  | _ => exact ⟨noFlags, by simp [*, affectedFlags, FlagUpdate.affected, noFlags], .inl (by simp [*])⟩

/-- CLRWDT and SLEEP write TO and PD and no other bit of STATUS (R15). -/
theorem exec_clrwdt_status (h : exec .clrwdt s = .next t) : t.status = (s.withToPd true true).status := by
  obtain rfl := Host.Outcome.next.inj h
  rfl

theorem exec_sleep_status (h : exec .sleep s = .next t) : t.status = (s.withToPd true false).status := by
  obtain rfl := Host.Outcome.next.inj h
  rfl

/-- A flag an update does not affect keeps its value. -/
theorem getD_of_isSome_false {x : Option Bool} {b : Bool} (h : x.isSome = false) : x.getD b = b := by
  rw [Option.isSome_eq_false_iff, Option.isNone_iff_eq_none] at h
  rw [h, Option.getD_none]

/-- The flags of R16 and nothing else of bits 2:0 and 7:5. -/
theorem applyFlags_keeps_unlisted (u : FlagUpdate) (b : Byte) :
    (u.affected.c = false → (applyFlags u b).getLsbD 0 = b.getLsbD 0) ∧
    (u.affected.dc = false → (applyFlags u b).getLsbD 1 = b.getLsbD 1) ∧
    (u.affected.z = false → (applyFlags u b).getLsbD 2 = b.getLsbD 2) ∧
    ∀ j, 5 ≤ j → (applyFlags u b).getLsbD j = b.getLsbD j :=
  ⟨fun hc => (applyFlags_c u b).trans (getD_of_isSome_false hc),
    fun hdc => (applyFlags_dc u b).trans (getD_of_isSome_false hdc),
    fun hz => (applyFlags_z u b).trans (getD_of_isSome_false hz),
    fun _ hj => applyFlags_getLsbD_high u b (by omega)⟩

/-- TO and PD are bits 4 and 3: writing them leaves C, DC, Z and bits 7:5. -/
theorem withToPd_keeps_flags (s : State) (x y : Bool) :
    ∀ j, j < 3 ∨ 5 ≤ j → (s.withToPd x y).status.getLsbD j = s.status.getLsbD j := by
  intro j hj
  rw [withToPd_getLsbD, if_neg (by unfold bitPD; omega), if_neg (by unfold bitTO; omega)]

/-- CLRWDT and SLEEP leave every bit of STATUS but TO and PD. -/
theorem exec_clrwdt_or_sleep_flags (h : exec i s = .next t) (hi : i = .clrwdt ∨ i = .sleep) :
    ∀ j, j < 3 ∨ 5 ≤ j → t.status.getLsbD j = s.status.getLsbD j := by
  rcases hi with rfl | rfl
  · exact exec_clrwdt_status h ▸ withToPd_keeps_flags s true true
  · exact exec_sleep_status h ▸ withToPd_keeps_flags s true false

/-- Settles O45: CLRWDT and SLEEP, which write TO and PD, and the others, whose flags are those of R16. -/
theorem flagsChangeOnlyAsListed : Obligations.FlagsChangeOnlyAsListed := by
  intro i s t h hd
  by_cases hi : i = .clrwdt ∨ i = .sleep
  · have keeps := exec_clrwdt_or_sleep_flags h hi
    exact ⟨fun _ => keeps 0 (by decide), fun _ => keeps 1 (by decide), fun _ => keeps 2 (by decide),
      fun j hj => keeps j (.inr hj)⟩
  · obtain ⟨hc, hs⟩ := not_or.mp hi
    obtain ⟨u, hu, ht | ⟨v, hd', -⟩⟩ := exec_status h hc hs
    · rw [hu, ht]
      exact applyFlags_keeps_unlisted u s.status
    · exact absurd hd' hd

/-- Only CLRWDT and SLEEP write TO and PD (R15, R31). -/
theorem exec_keeps_toPd (h : exec i s = .next t) (hc : i ≠ .clrwdt) (hs : i ≠ .sleep) {j : Nat}
    (hj : j = bitTO ∨ j = bitPD) : t.status.getLsbD j = s.status.getLsbD j := by
  have hj3 : 3 ≤ j := by unfold bitTO bitPD at hj; omega
  obtain ⟨u, -, ht | ⟨v, -, ht⟩⟩ := exec_status h hc hs
  · rw [ht, applyFlags_getLsbD_high u _ hj3]
  · rw [ht, applyFlags_getLsbD_high u _ hj3, statusAfterFileWrite_getLsbD, if_pos hj]

/-- TO and PD of STATUS at power-on, whatever Z, DC and C are (R32). -/
theorem statusAtPowerOn_toPd (zdc : BitVec 3) :
    (statusAtPowerOn zdc).getLsbD 4 = true ∧ (statusAtPowerOn zdc).getLsbD 3 = true := by
  revert zdc
  decide

/-- Settles O46: instructions, power-on, time-out. -/
theorem toAndPdOnlyByClrwdtAndSleep : Obligations.ToAndPdOnlyByClrwdtAndSleep := by
  refine ⟨fun i s t h => ⟨?_, ?_, ?_⟩, fun _ _ v => statusAtPowerOn_toPd v.zdc, fun v s => ⟨?_, ?_⟩⟩
  · rintro rfl
    rw [exec_clrwdt_status h, withToPd_getLsbD, withToPd_getLsbD]
    exact ⟨rfl, rfl⟩
  · rintro rfl
    rw [exec_sleep_status h, withToPd_getLsbD, withToPd_getLsbD]
    exact ⟨rfl, rfl⟩
  · exact fun hc hs => ⟨exec_keeps_toPd h hc hs (.inl rfl), exec_keeps_toPd h hc hs (.inr rfl)⟩
  · rw [watchdogReset, withToPd_getLsbD]
    rfl
  · rw [watchdogWake, withToPd_getLsbD]
    rfl

/-- Settles O28, bit by bit: R31 under the flags that are written after it. -/
theorem statusAsDestination : Obligations.StatusAsDestination := by
  intro v u s
  refine ⟨applyFlags u (statusAfterFileWrite u v s.status), ?_, ?_, ?_, ?_, ?_⟩
  · rw [← pc_add_one]
    rfl
  · intro j hj
    rw [applyFlags_getLsbD_high u _ (by omega), statusAfterFileWrite_getLsbD, if_neg (by unfold bitTO bitPD; omega),
      if_pos (.inl hj)]
  · intro j hj
    rw [applyFlags_getLsbD_high u _ (by omega), statusAfterFileWrite_getLsbD, if_pos (by unfold bitTO bitPD; omega)]
  · intro hu j hj
    have happly : ∀ b, applyFlags u b = b := by rw [hu]; exact applyFlags_noFlags
    rw [happly, statusAfterFileWrite_getLsbD, if_neg (by unfold bitTO bitPD; omega),
      if_pos (.inr ((affectsNone_iff u).mpr hu))]
  · intro hu
    have hold : ∀ j, j < 3 → (statusAfterFileWrite u v s.status).getLsbD j = s.status.getLsbD j := by
      intro j hj
      rw [statusAfterFileWrite_getLsbD, if_neg (by unfold bitTO bitPD; omega), if_neg]
      rw [affectsNone_iff]
      exact fun hor => hor.elim (by omega) hu
    rw [applyFlags_c, applyFlags_dc, applyFlags_z, hold 0 (by decide), hold 1 (by decide), hold 2 (by decide)]
    exact ⟨rfl, rfl, rfl⟩

/-- The carries of m + NOT w + 1 are the comparisons of m and w (R14). -/
theorem subFlags_eq (m w : Byte) :
    subFlags m w = ⟨some (decide (w.toNat ≤ m.toNat)), some (decide (w.toNat % 16 ≤ m.toNat % 16)),
      some (decide (m = w))⟩ := by
  have hw := w.isLt
  have hc : 255 < m.toNat + (255 - w.toNat) + 1 ↔ w.toNat ≤ m.toNat := by omega
  have hdc : 15 < m.toNat % 16 + (15 - w.toNat % 16) + 1 ↔ w.toNat % 16 ≤ m.toNat % 16 := by omega
  have hz : m - w = 0 ↔ m = w := by bv_omega
  simp only [subFlags, hc, hdc, beq_eq_decide, hz]

/-- STATUS after the flags of a subtraction. -/
theorem applyFlags_subFlags (m w b : Byte) :
    (applyFlags (subFlags m w) b).getLsbD 0 = decide (w.toNat ≤ m.toNat) ∧
    (applyFlags (subFlags m w) b).getLsbD 1 = decide (w.toNat % 16 ≤ m.toNat % 16) ∧
    (applyFlags (subFlags m w) b).getLsbD 2 = decide (m = w) := by
  rw [applyFlags_c, applyFlags_dc, applyFlags_z, subFlags_eq]
  exact ⟨rfl, rfl, rfl⟩

/-- Settles O39: both instructions write the flags of a subtraction last, whatever their destination. -/
theorem subtractionFlagsCompare : Obligations.SubtractionFlagsCompare := by
  intro s k f d l ho
  refine ⟨⟨_, rfl, applyFlags_subFlags k s.w s.status⟩, ⟨_, withOperand_some ho _, ?_⟩⟩
  rw [storeResult_status]
  exact applyFlags_subFlags (readLoc l s) s.w _

/-! ### pc -/

/-- No skip, no jump, no write of PCL: one word further (R18). -/
theorem exec_pc_next (h : exec i s = .next t) (hk : fallsThrough i) (hs : isSkip i = false)
    (hd : destination i s ≠ some (.sfr .pcl)) : t.pc = s.pc + 1 := by
  cases exec_next h <;> simp_all [storeResult_pc, fallsThrough, isCall, isGoto, isReturn]

/-- A skip goes one or two words further (40_byte_oriented.md R89). -/
theorem exec_pc_skip (h : exec i s = .next t) (hs : isSkip i = true) : t.pc = s.pc + 1 ∨ t.pc = s.pc + 1 + 1 := by
  cases exec_next h with
  | storedSkip f d l v taken _ _ _ _ _ _ _ _ hp ht => cases taken <;> simp_all [storeResult_pc]
  | tested f l taken _ _ _ _ _ _ _ _ ht => cases taken <;> simp_all
  | _ => simp_all [isSkip]

/-- A write of PCL stays in the block of PCLATH, without an advance (R19). -/
theorem exec_pc_pcl (h : exec i s = .next t) (hd : destination i s = some (.sfr .pcl)) :
    ∃ v : Byte, t.pc = s.pclath ++ v := by
  cases exec_next h <;> simp_all [storeResult_pc, destination]

/-- CALL and GOTO go to the page of PCLATH (43_call_goto.md R141, R142). -/
theorem exec_call_goto_pc {k : BitVec 11} (h : exec i s = .next t) (hi : i = .call k ∨ i = .goto k) :
    t.pc = pageTarget s k := by
  rcases hi with rfl | rfl
  · rw [(execCall_next h).2]
  · rw [← Host.Outcome.next.inj h]

/-- A return pops the address it goes to (42_literal_control.md R127 to R129). -/
theorem exec_return_pops (h : exec i s = .next t) (hr : isReturn i = true) : s.stack = t.pc :: t.stack := by
  cases exec_next h <;> simp_all [fallsThrough, isReturn]

/-- Settles O47, kind by kind. -/
theorem pcAfterAnInstruction : Obligations.PcAfterAnInstruction := by
  intro i s t h
  refine ⟨fun hs hc hg hr hd => ?_, fun hs => ?_, fun k hk => ?_, exec_return_pops h, fun hd => ?_⟩
  · rw [exec_pc_next h ⟨hc, hg, hr⟩ hs hd, pc_add_one_toNat]
  · refine (exec_pc_skip h hs).imp (fun ht => ?_) fun ht => ?_
    · rw [ht, pc_add_one_toNat]
    · rw [ht, pc_add_one_toNat, pc_add_one_toNat]
      omega
  · rw [exec_call_goto_pc h hk, pageTarget_toNat]
  · obtain ⟨v, hv⟩ := exec_pc_pcl h hd
    have hlt := v.isLt
    rw [hv, pclath_append_toNat]
    omega

end Sys2Proof.Proofs.StatusAndPc
end

section
/-! PROOFS. The invariant of a run (10_state.md R12, R21, R30; 20_memory.md R40; 42_literal_control.md R130). -/

namespace Sys2Proof.Proofs.Invariant

open Sys2Proof Sys2Proof.Machine Sys2Proof.Proofs.Frame Sys2Proof.Proofs.StatusAndPc

variable {i : Instr} {s t : State}

/-- The conjuncts of `State.Inv` that speak of data memory: canonical, and GPR addresses only. -/
def RamInv (p : Part) (m : Memory) : Prop :=
  Memory.wf m = true ∧ ∀ c ∈ m, c.1 < 256 ∧ classOf p (BitVec.ofNat 8 c.1) = .gpr

theorem ramInv_of_inv (h : s.Inv) : RamInv s.part s.ram := ⟨h.ram_wf, h.ram_gpr⟩

/-- A store at an address classed GPR keeps data memory in form. -/
theorem ramInv_ramSet {p : Part} {m : Memory} {a : EAddr} (h : RamInv p m) (ha : classOf p a = .gpr) (v : Byte) :
    RamInv p (ramSet m a.toNat v) := by
  obtain ⟨hwf, hgpr⟩ := h
  refine ⟨ramSet_wf hwf a.toNat v, fun c hc => ?_⟩
  rcases mem_ramSet hc with hold | rfl
  · exact hgpr c hold
  · exact ⟨a.isLt, by rw [BitVec.ofNat_toNat, BitVec.setWidth_eq, ha]⟩

/-- The invariant carries over where the memories stay, the stack does not grow past its depth and a core asleep after
the step has the TO and PD of sleep. -/
theorem inv_of_same_memories (hs : s.Inv) (hpart : t.part = s.part) (hprog : t.prog = s.prog) (hram : t.ram = s.ram)
    (hstack : t.stack.length ≤ s.part.stackDepth)
    (hsleep : t.asleep = true → t.status.getLsbD bitTO = true ∧ t.status.getLsbD bitPD = false) : t.Inv where
  ram_wf := hram ▸ hs.ram_wf
  ram_gpr := by rw [hram, hpart]; exact hs.ram_gpr
  prog_wf := hprog ▸ hs.prog_wf
  stack_depth := hpart ▸ hstack
  asleep_to_pd := hsleep

/-- The state the boundary looks at keeps the invariant. -/
theorem sampled_inv (hs : s.Inv) : s.sampled.Inv :=
  inv_of_same_memories hs (by simp) (by simp) (by simp) (by simpa using hs.stack_depth)
    (by simpa using hs.asleep_to_pd)

/-! ### One instruction -/

/-- The return stack after an instruction: CALL found room for one more, nothing else makes it longer. -/
theorem exec_stack_depth (h : exec i s = .next t) (hs : s.stack.length ≤ s.part.stackDepth) :
    t.stack.length ≤ s.part.stackDepth := by
  by_cases hc : isCall i = true
  · cases i with
    | call k =>
      obtain ⟨hroom, rfl⟩ := execCall_next h
      exact hroom
    | _ => cases hc
  by_cases hr : isReturn i = true
  · have hpop := congrArg List.length (exec_return_pops h hr)
    rw [List.length_cons] at hpop
    omega
  · rw [exec_stack h (Bool.eq_false_iff.mpr hc) (Bool.eq_false_iff.mpr hr)]
    exact hs

/-- Only SLEEP puts the core to sleep, with TO = 1 and PD = 0 (42_literal_control.md R130). -/
theorem exec_asleep_toPd (h : exec i s = .next t) (hawake : s.asleep = false) (ht : t.asleep = true) :
    t.status.getLsbD bitTO = true ∧ t.status.getLsbD bitPD = false := by
  by_cases hi : i = .sleep
  · subst hi
    rw [exec_sleep_status h, withToPd_getLsbD, withToPd_getLsbD]
    exact ⟨rfl, rfl⟩
  · rw [exec_asleep h hi, hawake] at ht
    cases ht

/-- An instruction run by an awake core keeps the invariant. -/
theorem exec_inv (h : exec i s = .next t) (hs : s.Inv) (hawake : s.asleep = false) : t.Inv := by
  have hram : RamInv t.part t.ram := by
    rw [exec_part h]
    rcases exec_ram h with hsame | ⟨f, a, v, ho, -, hset⟩
    · exact hsame ▸ ramInv_of_inv hs
    · exact hset ▸ ramInv_ramSet (ramInv_of_inv hs) (operand_ram ho) v
  exact {
    ram_wf := hram.1
    ram_gpr := hram.2
    prog_wf := exec_prog h ▸ hs.prog_wf
    stack_depth := exec_part h ▸ exec_stack_depth h hs.stack_depth
    asleep_to_pd := exec_asleep_toPd h hawake }

/-! ### What ends a step at the boundary -/

/-- A reset empties the stack and wakes the core. -/
theorem controlReset_inv (v : ResetValues) (hs : s.Inv) : (controlReset v s).Inv :=
  inv_of_same_memories hs rfl rfl rfl (Nat.zero_le _) nofun

theorem externalReset_inv (v : ResetValues) (hs : s.Inv) : (externalReset v s).Inv := by
  unfold externalReset
  split
  · exact inv_of_same_memories (controlReset_inv v hs) rfl rfl rfl (Nat.zero_le _) nofun
  · exact controlReset_inv v hs

theorem watchdogReset_inv (v : ResetValues) (hs : s.Inv) : (watchdogReset v s).Inv :=
  inv_of_same_memories (controlReset_inv v hs) rfl rfl rfl (Nat.zero_le _) nofun

theorem watchdogWake_inv (hs : s.Inv) : (watchdogWake s).Inv :=
  inv_of_same_memories hs rfl rfl rfl hs.stack_depth nofun

theorem interruptWake_inv (hs : s.Inv) : (interruptWake s).Inv :=
  inv_of_same_memories hs rfl rfl rfl hs.stack_depth nofun

/-- Interrupt entry found room for the address it pushes; it comes to an awake core. -/
theorem interruptEntry_inv (h : interruptEntry s = .next t) (hs : s.Inv) (hawake : s.asleep = false) : t.Inv := by
  obtain ⟨hroom, rfl⟩ := interruptEntry_next h
  exact inv_of_same_memories hs rfl rfl rfl hroom fun ht => absurd (hawake.symm.trans ht) nofun

/-- Settles O13, by what a step can be: each event of the boundary keeps the invariant, and so does an instruction. -/
theorem stepKeepsInvariant : Obligations.StepKeepsInvariant := by
  intro s t hs h
  have hsampled := sampled_inv hs
  rcases step_next h with ⟨v, rfl⟩ | ⟨v, rfl⟩ | ⟨-, rfl | rfl⟩ | ⟨hawake, hentry⟩ | ⟨hawake, i, -, hexec⟩
  · exact externalReset_inv v hsampled
  · split
    · exact watchdogWake_inv hsampled
    · exact watchdogReset_inv v hsampled
  · exact interruptWake_inv hsampled
  · exact hsampled
  · exact interruptEntry_inv hentry hsampled (by simpa using hawake)
  · have hfetch : (s.sampled.withWake s.wake.next).Inv :=
      inv_of_same_memories hsampled rfl rfl rfl hsampled.stack_depth hsampled.asleep_to_pd
    exact exec_inv hexec hfetch (by simpa [State.withWake] using hawake)

/-- Settles O14: nothing is listed at reset, and the core is awake. -/
theorem resetSatisfiesInvariant : Obligations.ResetSatisfiesInvariant where
  ram_wf := reset_ram_wf
  ram_gpr := nofun
  prog_wf := reset_prog_wf
  stack_depth := Nat.zero_le _
  asleep_to_pd := nofun

end Sys2Proof.Proofs.Invariant
end

section
/-! PROOFS. The map of R30 and the values of R32 (10_state.md). -/

namespace Sys2Proof.Proofs.ResetAndMap

open Sys2Proof Sys2Proof.Machine

/-- Each of the 256 addresses looked up: a mirror of the reference map shows storage. -/
theorem referencePart_wfMirrorAt : ∀ a : EAddr, referencePart.wfMirrorAt a = true := by decide

theorem referencePart_wf : referencePart.wf = true := by
  have hmirrors : referencePart.wfMirrors = true := List.all_eq_true.mpr fun _ _ => referencePart_wfMirrorAt _
  have hrest : (referencePart.wfProgWords && referencePart.wfStackDepth && referencePart.wfSourceAddresses &&
      referencePart.wfCoreAddresses) = true := by decide
  rw [Part.wf, hrest, hmirrors, Bool.and_self]

/-- Settles O33: well-formedness part by part; the table by looking up each of the 256 addresses. -/
theorem referenceMapIsTheTable : Obligations.ReferenceMapIsTheTable := ⟨referencePart_wf, by decide⟩

/-- STATUS at power-on in numbers: TO and PD over the unspecified Z, DC and C (R32). -/
theorem statusAtPowerOn_toNat (zdc : BitVec 3) : (statusAtPowerOn zdc).toNat = 0x18 + zdc.toNat := by
  revert zdc
  decide

/-- INTCON after reset in numbers: the unspecified bit 0 alone (R32). -/
theorem intconAtReset_toNat (bit0 : Bool) : (intconAtReset bit0).toNat = bit0.toNat := by
  cases bit0 <;> rfl

/-- Settles O59, field by field. -/
theorem powerOnReset : Obligations.PowerOnReset := fun _ _ v =>
  ⟨rfl, statusAtPowerOn_toNat v.zdc, rfl, intconAtReset_toNat v.intcon0, rfl, rfl, rfl, rfl, rfl, rfl, rfl, rfl⟩

end Sys2Proof.Proofs.ResetAndMap
end

section
/-! PROOFS. The core registers and the peripherals as file operands (10_state.md R11, R19, R28; 20_memory.md R47, R49;
70_reset_and_hazards.md R175, R176). -/

namespace Sys2Proof.Proofs.FileOperands

open Sys2Proof Sys2Proof.Machine Sys2Proof.Proofs.StoreRules

variable {s : State}

/-! ### The address and its location -/

/-- A bit put in front of a file address selects one of two banks of 128 addresses (R11). -/
theorem ofBool_append_toNat (b : Bool) (f : FAddr) :
    (BitVec.ofBool b ++ f).toNat = (if b then 128 else 0) + f.toNat := by
  rw [BitVec.toNat_append, ← Nat.shiftLeft_add_eq_or_of_lt f.isLt, Nat.shiftLeft_eq]
  cases b <;> simp

theorem ea_toNat (s : State) (f : FAddr) :
    (ea s f).toNat = (if s.status.getLsbD 5 then 128 else 0) + f.toNat :=
  ofBool_append_toNat _ f

/-- In a well-formed map the core registers stand at their addresses (20_memory.md R49). -/
theorem classOf_coreAddresses {p : Part} (h : p.wf = true) {a : EAddr} {c : RegClass} (hm : (a, c) ∈ coreAddresses) :
    classOf p a = c := by
  simp only [Part.wf, Bool.and_eq_true] at h
  obtain ⟨⟨-, hcore⟩, -⟩ := h
  exact beq_iff_eq.mp (List.all_eq_true.mp hcore _ hm)

/-- An address classed as a core register is that register. -/
theorem locate_core {a : EAddr} {r : Sfr} (h : classOf s.part a = .core r) : locate s a = some (.sfr r) := by
  have hstorage : storageOf s.part a = (a, .core r) := by simp [storageOf, followMirrors, h]
  simp [locate, hstorage, plainLoc]

/-- A core register with an address in both banks is the operand whatever the bank bit is. -/
theorem operand_core {f : FAddr} {r : Sfr} (h : s.part.wf = true)
    (hbank0 : (BitVec.ofBool false ++ f, RegClass.core r) ∈ coreAddresses)
    (hbank1 : (BitVec.ofBool true ++ f, RegClass.core r) ∈ coreAddresses) : operand s f = some (.sfr r) := by
  unfold operand ea
  cases s.status.getLsbD bitRP0 with
  | false => exact locate_core (classOf_coreAddresses h hbank0)
  | true => exact locate_core (classOf_coreAddresses h hbank1)

theorem operand_pcl (h : s.part.wf = true) : operand s 0x02 = some (.sfr .pcl) :=
  operand_core h (by decide) (by decide)

theorem operand_status (h : s.part.wf = true) : operand s 0x03 = some (.sfr .status) :=
  operand_core h (by decide) (by decide)

/-! ### PCL -/

/-- PCL reads as the low byte of the next address (R19). -/
theorem readLoc_pcl_toNat (s : State) : (readLoc (.sfr .pcl) s).toNat = (s.pc.toNat + 1) % 8192 % 256 := by
  rw [← pc_add_one_toNat]
  exact BitVec.extractLsb'_toNat 0 8 (s.pc + 1)

/-- A result stored in PCL: the jump and the flags, no advance (R19). -/
theorem storeResult_pcl (v : Byte) (u : FlagUpdate) (s : State) :
    storeResult .f (.sfr .pcl) v u s = { s with status := applyFlags u s.status, pc := s.pclath ++ v } := rfl

/-- A skip that would write PCL is refused (R19). -/
theorem computeFdSkip_pcl (c : Byte → Byte) {f : FAddr} (ho : operand s f = some (.sfr .pcl)) :
    computeFdSkip c f .f s = .refused .undefinedCombination := by
  rw [computeFdSkip, withOperand_some ho]
  exact if_pos ⟨rfl, rfl⟩

/-- Settles O29: read, write, refusal. -/
theorem pclAsOperandAndDestination : Obligations.PclAsOperandAndDestination := by
  refine fun v u s => ⟨readLoc_pcl_toNat s, ?_, fun f ho => ⟨computeFdSkip_pcl (· - 1) ho, computeFdSkip_pcl (· + 1) ho⟩⟩
  rw [storeResult_pcl, ← pclath_append_toNat, BitVec.ofNat_toNat, BitVec.setWidth_eq]

/-- Settles O30: the low byte of pc + 1 is the operand, PCL the destination, the carry a flag. -/
theorem computedJump : Obligations.ComputedJump := by
  intro s hwf
  have hlow : (readLoc (.sfr .pcl) s).toNat = (s.pc.toNat + 1) % 256 := by
    rw [readLoc_pcl_toNat, Nat.mod_mod_of_dvd _ (by decide)]
  refine ⟨_, withOperand_some (operand_pcl hwf) _, ?_, ?_, ?_⟩
  · rw [storeResult_pcl]
    simp only [afterRead_pclath, pclath_append_toNat, BitVec.toNat_add, hlow]
  · rw [storeResult_status, applyFlags_c, ← hlow]
    rfl
  · rw [storeResult_wReg, if_neg nofun, afterRead_w]

/-! ### The bank bit -/

/-- BSF and BCF STATUS,5 complete with the bank bit as asked (R11, R31). -/
theorem changeBit_bank (x : Bool) (hwf : s.part.wf = true) :
    ∃ t, changeBit x 0x03 5 s = .next t ∧ t.status.getLsbD 5 = x := by
  refine ⟨_, withOperand_some (operand_status hwf) _, ?_⟩
  rw [storeResult_status, if_pos ⟨rfl, rfl⟩, applyFlags_noFlags, statusAfterFileWrite_getLsbD, if_neg (by decide),
    if_pos (.inl (by decide))]
  exact setBit_getLsbD _ 5 5 x (by decide)

/-- Settles O31: the address in numbers, then each instruction by the bank bit it leaves. -/
theorem bankSelect : Obligations.BankSelect := by
  refine fun s f => ⟨ea_toNat s f, fun hwf => ⟨?_, ?_⟩⟩
  · obtain ⟨t, ht, hbank⟩ := changeBit_bank true hwf
    exact ⟨t, ht, by rw [ea_toNat, hbank, if_pos rfl]⟩
  · obtain ⟨t, ht, hbank⟩ := changeBit_bank false hwf
    exact ⟨t, ht, by rw [ea_toNat, hbank, if_neg nofun, Nat.zero_add]⟩

/-! ### Peripherals -/

/-- A bit set, in numbers (41_bit_oriented.md R112). -/
theorem setBit_true_eq (v : Byte) (i : Nat) : setBit v i true = BitVec.ofNat 8 (v.toNat ||| 2 ^ i) := by
  apply BitVec.eq_of_toNat_eq
  simp [setBit, Nat.shiftLeft_eq]

/-- A result of an instruction without flags stored in a peripheral register is one output event (R28). -/
theorem storeResult_port (n : Peripheral) (a : EAddr) (v : Byte) (s : State) :
    storeResult .f (.port n a) v noFlags s = { s with
      outputs := s.outputs ++ [⟨n, a, v⟩], pc := BitVec.ofNat 13 ((s.pc.toNat + 1) % 8192) } := by
  rw [← pc_add_one]
  rfl

/-- Settles O34: MOVWF writes W without a read; BSF reads, then writes the byte with its bit set. -/
theorem peripheralAccess : Obligations.PeripheralAccess := by
  intro f b s n a ho
  constructor
  · exact (withOperand_some ho _).trans (congrArg _ (storeResult_port n a s.w s))
  · refine (withOperand_some ho _).trans (congrArg _ ?_)
    rw [storeResult_port, setBit_true_eq]
    rfl

end Sys2Proof.Proofs.FileOperands
end

section
/-! PROOFS. Sleep and the watchdog over a whole step (10_state.md R24, R26; 60_exceptions.md R155, R159, R160;
70_reset_and_hazards.md R171). -/

namespace Sys2Proof.Proofs.BoundaryEvents

open Sys2Proof Sys2Proof.Machine Sys2Proof.Proofs.Frame Sys2Proof.Proofs.StatusAndPc

variable {i : Instr} {s t : State}

/-- Without a reset or a time-out scheduled, there is none. -/
theorem noReset_of_no_watchdog (hx : s.part.extReset = true → s.nextBoundary.externalReset = none)
    (hw : ¬(s.part.wdte = true ∧ ∃ v, s.nextBoundary.watchdog = some v)) : s.NoReset :=
  ⟨hx, fun hp => Option.eq_none_iff_forall_ne_some.mpr fun v hv => hw ⟨hp, v, hv⟩⟩

/-! ### Sleep -/

/-- What a step of a sleeping core without an external reset can be: the two wake-ups, or sleeping on (R160). -/
theorem step_of_asleep (ha : s.asleep = true) (hx : s.part.extReset = true → s.nextBoundary.externalReset = none)
    (h : step s = .next t) : t = watchdogWake s.sampled ∨ t = interruptWake s.sampled ∨ t = s.sampled := by
  by_cases hw : s.part.wdte = true ∧ ∃ v, s.nextBoundary.watchdog = some v
  · obtain ⟨hp, v, hv⟩ := hw
    rw [step_watchdog hx hp hv, if_pos ha] at h
    exact .inl (Host.Outcome.next.inj h).symm
  rw [step_of_noReset (noReset_of_no_watchdog hx hw), if_pos ha] at h
  split at h
  · exact .inr (.inl (Host.Outcome.next.inj h).symm)
  · split at h
    · cases h
    · exact .inr (.inr (Host.Outcome.next.inj h).symm)

/-- A wake-up by time-out writes TO and PD and no other bit of STATUS (R159). -/
theorem watchdogWake_status_getLsbD (s : State) {j : Nat} (hpd : j ≠ bitPD) (hto : j ≠ bitTO) :
    (watchdogWake s).status.getLsbD j = s.status.getLsbD j := by
  rw [watchdogWake, withToPd_getLsbD, if_neg hpd, if_neg hto]

/-- Settles O54: neither wake-up nor the state sampled at the boundary touches anything but TO, PD and what wakes. -/
theorem sleepRetainsCoreState : Obligations.SleepRetainsCoreState := by
  intro s t ha hx h
  rcases step_of_asleep ha hx h with rfl | rfl | rfl
  · refine ⟨s.sampled_pc, s.sampled_w, s.sampled_ram, s.sampled_pclath, s.sampled_fsr, s.sampled_optionReg,
      s.sampled_stack, s.sampled_outputs, s.sampled_draws, fun j h3 h4 => ?_⟩
    rw [watchdogWake_status_getLsbD s.sampled h3 h4, s.sampled_status]
  · simp [interruptWake]
  · simp

/-! ### The watchdog -/

/-- The watchdog and its prescaler are both in the state `p`. -/
def Watchdog (p : WdtPhase) (s : State) : Prop := s.wdt = p ∧ s.wdtPrescaler = p

/-- An instruction clears a running watchdog exactly if it is CLRWDT or SLEEP (R24). -/
theorem exec_cleared_iff (h : exec i s = .next t) (hrun : Watchdog .running s) :
    (t.wdt = .cleared ↔ i = .clrwdt ∨ i = .sleep) ∧ (t.wdtPrescaler = .cleared ↔ i = .clrwdt ∨ i = .sleep) := by
  by_cases hi : i = .clrwdt ∨ i = .sleep
  · have ht : Watchdog .cleared t := by
      rcases hi with rfl | rfl <;> rw [← Host.Outcome.next.inj h] <;> exact ⟨rfl, rfl⟩
    exact ⟨iff_of_true ht.1 hi, iff_of_true ht.2 hi⟩
  · obtain ⟨hc, hs⟩ := not_or.mp hi
    obtain ⟨hwdt, hpre⟩ := exec_wdt h hc hs
    rw [hwdt, hpre, hrun.1, hrun.2]
    exact ⟨iff_of_false nofun hi, iff_of_false nofun hi⟩

/-- An instruction leaves a cleared watchdog cleared. -/
theorem exec_keeps_cleared (h : exec i s = .next t) (hs : Watchdog .cleared s) : Watchdog .cleared t := by
  cases exec_next h <;> simp_all [Watchdog]

/-- Both kinds of reset clear the watchdog (R171). -/
theorem externalReset_cleared (v : ResetValues) (s : State) : Watchdog .cleared (externalReset v s) := by
  unfold externalReset
  split <;> exact ⟨rfl, rfl⟩

theorem watchdogReset_cleared (v : ResetValues) (s : State) : Watchdog .cleared (watchdogReset v s) := ⟨rfl, rfl⟩

theorem watchdogWake_watchdog {p : WdtPhase} (hs : Watchdog p s) : Watchdog p (watchdogWake s) := hs

theorem interruptWake_watchdog {p : WdtPhase} (hs : Watchdog p s) : Watchdog p (interruptWake s) := hs

theorem withWake_watchdog {p : WdtPhase} (k : WakePhase) (hs : Watchdog p s) : Watchdog p (s.withWake k) := hs

theorem interruptEntry_watchdog {p : WdtPhase} (h : interruptEntry s = .next t) (hs : Watchdog p s) : Watchdog p t := by
  obtain ⟨-, rfl⟩ := interruptEntry_next h
  exact hs

/-- With the instruction at pc known, a step that fetches is that instruction. -/
theorem step_of_willFetch (hwill : s.WillFetch) {c : Container} (hpc : s.pc.toNat < s.part.progWords)
    (hc : progGet s.prog s.pc.toNat = some c) (hi : decodeContainer c = some i) :
    step s = exec i (s.sampled.withWake s.wake.next) := by
  obtain ⟨hno, hawake, hentry⟩ := hwill
  rw [step_of_noReset hno, hawake, hentry]
  simp [fetchExec, fetchAt, State.withWake, hpc, hc, hi]

/-- A step that ends at the boundary without a reset or a time-out leaves the watchdog as it was sampled. -/
theorem step_without_fetch {p : WdtPhase} (h : step s = .next t) (hno : s.NoReset) (hwill : ¬s.WillFetch)
    (hs : Watchdog p s.sampled) : Watchdog p t := by
  rw [step_of_noReset hno] at h
  split at h
  · split at h
    · rw [← Host.Outcome.next.inj h]
      exact interruptWake_watchdog hs
    · split at h
      · cases h
      · rw [← Host.Outcome.next.inj h]
        exact hs
  · next ha =>
    split at h
    · exact interruptEntry_watchdog h hs
    · next he => exact absurd ⟨hno, Bool.eq_false_iff.mpr ha, Bool.eq_false_iff.mpr he⟩ hwill

/-- A cleared watchdog that nothing starts stays cleared over any step. -/
theorem step_keeps_cleared (h : step s = .next t) (hs : Watchdog .cleared s.sampled) : Watchdog .cleared t := by
  rcases step_next h with ⟨v, rfl⟩ | ⟨v, rfl⟩ | ⟨-, rfl | rfl⟩ | ⟨-, hentry⟩ | ⟨-, i, -, hexec⟩
  · exact externalReset_cleared v _
  · split
    · exact watchdogWake_watchdog hs
    · exact watchdogReset_cleared v _
  · exact interruptWake_watchdog hs
  · exact hs
  · exact interruptEntry_watchdog hentry hs
  · exact exec_keeps_cleared hexec (withWake_watchdog _ hs)

/-- Settles O57: after an instruction; at a boundary without one; after each reset; without WDTE. -/
theorem watchdogClearedJustAfterAClear : Obligations.WatchdogClearedJustAfterAClear := by
  intro s t h
  refine ⟨fun hwdte hwill c i hpc hc hi => ?_, fun hwdte hno hwill => ?_, fun v hp hv => ?_,
    fun v hwdte hx hv => ⟨fun hawake => ?_, fun hasleep => ?_⟩, fun hwdte hwdt hpre => ?_⟩
  · rw [step_of_willFetch hwill hpc hc hi] at h
    exact exec_cleared_iff h (withWake_watchdog _ (State.sampled_running hwdte))
  · exact step_without_fetch h hno hwill (State.sampled_running hwdte)
  · rw [step_externalReset hp hv] at h
    exact Host.Outcome.next.inj h ▸ externalReset_cleared v s.sampled
  · rw [step_watchdog hx hwdte hv, hawake] at h
    exact Host.Outcome.next.inj h ▸ watchdogReset_cleared v s.sampled
  · rw [step_watchdog hx hwdte hv, hasleep] at h
    exact Host.Outcome.next.inj h ▸ watchdogWake_watchdog (State.sampled_running hwdte)
  · obtain ⟨hsame, hsamePre⟩ := State.sampled_disabled hwdte
    exact step_keeps_cleared h ⟨hsame.trans hwdt, hsamePre.trans hpre⟩

end Sys2Proof.Proofs.BoundaryEvents
end

section
/-! PROOFS. Program memory: the fetch at pc, and that no step writes it (20_memory.md R41, R52; 00_scope.md R3;
30_encoding.md R69; 60_exceptions.md R152, R155). -/

namespace Sys2Proof.Proofs.ProgramMemory

open Sys2Proof Sys2Proof.Machine Sys2Proof.Proofs.Frame Sys2Proof.Proofs.BoundaryEvents

variable {s t : State}

/-! ### What no step changes -/

/-- `t` has the program memory and the parameters of `s`: what is fixed for a machine. -/
def SameMachine (s t : State) : Prop := t.prog = s.prog ∧ t.part = s.part

theorem sampled_sameMachine (s : State) : SameMachine s s.sampled := ⟨s.sampled_prog, s.sampled_part⟩

theorem externalReset_sameMachine (v : ResetValues) (s : State) : SameMachine s (externalReset v s) := by
  unfold externalReset
  split <;> exact ⟨rfl, rfl⟩

theorem watchdogReset_sameMachine (v : ResetValues) (s : State) : SameMachine s (watchdogReset v s) := ⟨rfl, rfl⟩

theorem watchdogWake_sameMachine (s : State) : SameMachine s (watchdogWake s) := ⟨rfl, rfl⟩

theorem interruptWake_sameMachine (s : State) : SameMachine s (interruptWake s) := ⟨rfl, rfl⟩

theorem interruptEntry_sameMachine (h : interruptEntry s = .next t) : SameMachine s t := by
  obtain ⟨-, rfl⟩ := interruptEntry_next h
  exact ⟨rfl, rfl⟩

theorem exec_sameMachine {i : Instr} (h : exec i s = .next t) : SameMachine s t := ⟨exec_prog h, exec_part h⟩

/-- From the state the boundary looks at on, each event a step can be keeps the machine. -/
theorem step_sameMachine_sampled (h : step s = .next t) : SameMachine s.sampled t := by
  rcases step_next h with ⟨v, rfl⟩ | ⟨v, rfl⟩ | ⟨-, rfl | rfl⟩ | ⟨-, hentry⟩ | ⟨-, i, -, hexec⟩
  · exact externalReset_sameMachine v _
  · split
    · exact watchdogWake_sameMachine _
    · exact watchdogReset_sameMachine v _
  · exact interruptWake_sameMachine _
  · exact ⟨rfl, rfl⟩
  · exact interruptEntry_sameMachine hentry
  · obtain ⟨hprog, hpart⟩ := exec_sameMachine hexec
    exact ⟨hprog, hpart⟩

/-- Settles O12: the boundary keeps program memory and the part, and so does what the step then is. -/
theorem stepKeepsProgramAndPart : Obligations.StepKeepsProgramAndPart := by
  intro s t h
  obtain ⟨hprog, hpart⟩ := step_sameMachine_sampled h
  exact ⟨hprog.trans s.sampled_prog, hpart.trans s.sampled_part⟩

/-! ### The fetch -/

/-- A step that fetches is the fetch and the instruction, in the state at the fetch (R152, R155). -/
theorem step_eq_fetchExec (hwill : s.WillFetch) : step s = fetchExec s.atFetch := by
  obtain ⟨hno, hawake, hentry⟩ := hwill
  rw [step_of_noReset hno, hawake, hentry]
  rfl

/-- The boundary moves neither pc nor anything the fetch looks at. -/
theorem fetchAt_atFetch (s : State) : fetchAt s.atFetch s.atFetch.pc = fetchAt s s.pc := by
  simp [State.atFetch, fetchAt]

/-- A step whose fetch is refused is that refusal. -/
theorem step_of_fetch_error {r : Refusal} (hwill : s.WillFetch) (hfetch : fetchAt s s.pc = .error r) :
    step s = .refused r := by
  rw [step_eq_fetchExec hwill, fetchExec, fetchAt_atFetch, hfetch]

/-- No word is fetched at or above PROG_WORDS (R41). -/
theorem fetchAt_outside {p : PAddr} (h : s.part.progWords ≤ p.toNat) :
    fetchAt s p = .error .fetchOutsideProgram :=
  if_neg (Nat.not_lt.mpr h)

/-- No word is fetched where none was ever stored (93_implementation_defined.md U3, log 11). -/
theorem fetchAt_unprogrammed {p : PAddr} (h : p.toNat < s.part.progWords) (hnone : progGet s.prog p.toNat = none) :
    fetchAt s p = .error .unprogrammedWord := by
  rw [fetchAt, if_pos h, hnone]

/-- Settles O10: the state at the fetch is the sampled one, its wake-up one phase further. -/
theorem stepRunsTheDecodedInstruction : Obligations.StepRunsTheDecodedInstruction :=
  fun _ _ _ hwill hpc hc hi => step_of_willFetch hwill hpc hc hi

/-- Settles O11, by whether pc lies in the program. -/
theorem fetchOutsideProgramIsRefused : Obligations.FetchOutsideProgramIsRefused := fun _ hwill =>
  ⟨fun hout => step_of_fetch_error hwill (fetchAt_outside hout),
    fun hin hnone => step_of_fetch_error hwill (fetchAt_unprogrammed hin hnone)⟩

end Sys2Proof.Proofs.ProgramMemory
end

section
/-! PROOFS. Data memory: the location each class of address names, what MemRead returns there and what MemWrite does
there (20_memory.md R42, R43, R49; 10_state.md R19, R20, R27, R30, R31). -/

namespace Sys2Proof.Proofs.DataMemory

open Sys2Proof Sys2Proof.Machine Sys2Proof.Proofs.StoreRules Sys2Proof.Proofs.FileOperands

variable {s : State} {p : Part} {a target : EAddr}

/-! ### Mirrors -/

/-- A class a mirror may show: not INDF, not nothing, not another mirror (R42 and R43 then end). -/
def Storage (c : RegClass) : Prop := c ≠ .indf ∧ c ≠ .unimplemented ∧ ∀ target, c ≠ .mirror target

/-- In a well-formed map a mirror shows storage: the check over all 256 addresses, at one of them. -/
theorem storage_of_mirror (hwf : p.wf = true) (h : classOf p a = .mirror target) : Storage (classOf p target) := by
  simp only [Part.wf, Bool.and_eq_true] at hwf
  obtain ⟨-, hmirrors⟩ := hwf
  have hcheck : p.wfMirrorAt a = true := by
    have hat := List.all_eq_true.mp hmirrors a.toNat (List.mem_range.mpr a.isLt)
    rwa [BitVec.ofNat_toNat, BitVec.setWidth_eq] at hat
  rw [Part.wfMirrorAt, h] at hcheck
  cases hc : classOf p target <;> simp_all [Storage]

/-- An address that is no mirror names its own storage. -/
theorem storageOf_of_not_mirror (h : ∀ target, classOf p a ≠ .mirror target) : storageOf p a = (a, classOf p a) := by
  rw [storageOf, followMirrors]
  split
  · next target hm => exact absurd hm (h target)
  · rfl

/-- A mirror names the storage of its target: "the same storage as address a'" (R30). -/
theorem storageOf_mirror (hwf : p.wf = true) (h : classOf p a = .mirror target) :
    storageOf p a = storageOf p target := by
  obtain ⟨-, -, hnot⟩ := storage_of_mirror hwf h
  rw [storageOf_of_not_mirror hnot, storageOf, followMirrors, h]
  simp only [followMirrors]

/-- In a well-formed map no mirror leads to INDF: the storage is INDF only where the address is. -/
theorem storageOf_ne_indf (hwf : p.wf = true) (h : classOf p a ≠ .indf) : (storageOf p a).2 ≠ .indf := by
  cases hc : classOf p a with
  | mirror target =>
    obtain ⟨hindf, -, hnot⟩ := storage_of_mirror hwf hc
    rwa [storageOf_mirror hwf hc, storageOf_of_not_mirror hnot]
  | _ => rwa [storageOf_of_not_mirror (by simp [hc])]

/-! ### The location of an address, by its class -/

/-- Storage that is not INDF is reached directly. -/
theorem locate_of_storage_ne_indf (h : (storageOf s.part a).2 ≠ .indf) :
    locate s a = plainLoc (storageOf s.part a).1 (storageOf s.part a).2 := by
  rw [locate]
  split
  · next heq => exact absurd (congrArg Prod.snd heq) h
  · next heq => rw [heq]

/-- An address that is neither a mirror nor INDF is the location its own class gives. -/
theorem locate_direct (hmirror : ∀ target, classOf s.part a ≠ .mirror target) (hindf : classOf s.part a ≠ .indf) :
    locate s a = plainLoc a (classOf s.part a) := by
  have hstorage := storageOf_of_not_mirror hmirror
  rw [locate_of_storage_ne_indf (by rwa [hstorage]), hstorage]

theorem locate_gpr (h : classOf s.part a = .gpr) : locate s a = some (.ram a) := by
  rw [locate_direct (by simp [h]) (by simp [h]), h]
  rfl

theorem locate_peripheral {n : Peripheral} (h : classOf s.part a = .peripheral n) : locate s a = some (.port n a) := by
  rw [locate_direct (by simp [h]) (by simp [h]), h]
  rfl

theorem locate_unimplemented (h : classOf s.part a = .unimplemented) : locate s a = none := by
  rw [locate_direct (by simp [h]) (by simp [h]), h]
  rfl

theorem locate_mirror (hwf : s.part.wf = true) (h : classOf s.part a = .mirror target) :
    locate s a = locate s target := by
  rw [locate, storageOf_mirror hwf h, locate]

/-- INDF is the register FSR points at, and no register where FSR points at INDF (R27). -/
theorem locate_indf (hwf : s.part.wf = true) (h : classOf s.part a = .indf) :
    locate s a = if classOf s.part s.fsr = .indf then some .null else locate s s.fsr := by
  have hthrough : locate s a = plainLoc (storageOf s.part s.fsr).1 (storageOf s.part s.fsr).2 := by
    rw [locate, storageOf_of_not_mirror (by simp [h]), h]
  rw [hthrough]
  split
  · next hfsr =>
    rw [storageOf_of_not_mirror (by simp [hfsr]), hfsr]
    rfl
  · next hfsr => rw [locate_of_storage_ne_indf (storageOf_ne_indf hwf hfsr)]

/-! ### MemRead -/

theorem memRead_of_locate {l : Loc} (h : locate s a = some l) : memRead s a = some (readLoc l s) := by
  rw [memRead, h, Option.map_some]

/-- MemRead sees an address only through its location. -/
theorem memRead_congr {b : EAddr} (h : locate s a = locate s b) : memRead s a = memRead s b := by
  rw [memRead, h, memRead]

/-- MemRead of a core register is the read of that register. -/
theorem memRead_core {r : Sfr} (h : classOf s.part a = .core r) : memRead s a = some (readSfr r s) :=
  memRead_of_locate (locate_core h)

theorem memRead_indf (hwf : s.part.wf = true) (h : classOf s.part a = .indf) :
    memRead s a = if classOf s.part s.fsr = .indf then some 0x00 else memRead s s.fsr := by
  have hloc := locate_indf hwf h
  split at hloc
  · next hfsr => rw [if_pos hfsr, memRead_of_locate hloc, readLoc]
  · next hfsr => rw [if_neg hfsr, memRead_congr hloc]

/-- PCL reads as the low byte of the next address (R19). -/
theorem readSfr_pcl (s : State) : readSfr .pcl s = BitVec.ofNat 8 ((s.pc.toNat + 1) % 8192 % 256) := by
  rw [← readLoc_pcl_toNat, BitVec.ofNat_toNat, BitVec.setWidth_eq, readLoc]

/-- PCLATH reads with zeros above its five bits (R20). -/
theorem readSfr_pclath (s : State) : readSfr .pclath s = BitVec.ofNat 8 s.pclath.toNat := by
  have hlt := s.pclath.isLt
  apply BitVec.eq_of_toNat_eq
  rw [readSfr, BitVec.toNat_append, BitVec.toNat_ofNat, BitVec.toNat_ofNat, Nat.zero_mod, Nat.zero_shiftLeft,
    Nat.zero_or, Nat.mod_eq_of_lt (by omega)]

/-- Settles O25, class by class: the location, then what is read there. -/
theorem readByClassOfAddress : Obligations.ReadByClassOfAddress := by
  intro s a hwf
  refine ⟨fun h => memRead_of_locate (locate_gpr h), fun target h => memRead_congr (locate_mirror hwf h),
    memRead_core, fun h => ?pcl, fun h => ?pclath, memRead_core, memRead_core, memRead_core, memRead_indf hwf,
    fun n h => memRead_of_locate (locate_peripheral h), fun h => ?unimplemented⟩
  case pcl => rw [memRead_core h, readSfr_pcl]
  case pclath => rw [memRead_core h, readSfr_pclath]
  case unimplemented => rw [memRead, locate_unimplemented h, Option.map_none]

/-! ### MemWrite -/

section

variable {u : FlagUpdate} {v : Byte}

theorem memWrite_of_locate {l : Loc} (h : locate s a = some l) : memWrite u s a v = some (writeLoc u l v s) := by
  rw [memWrite, h, Option.map_some]

/-- MemWrite sees an address only through its location. -/
theorem memWrite_congr {b : EAddr} (h : locate s a = locate s b) : memWrite u s a v = memWrite u s b v := by
  rw [memWrite, h, memWrite]

/-- MemWrite of a core register is the write of that register. -/
theorem memWrite_core {r : Sfr} (h : classOf s.part a = .core r) : memWrite u s a v = some (writeSfr u r v s) :=
  memWrite_of_locate (locate_core h)

/-- A write of a general-purpose register stores the byte at its address and at no other (R12). -/
theorem memWrite_gpr (hram : Memory.wf s.ram = true) (h : classOf s.part a = .gpr) :
    ∃ m, memWrite u s a v = some { s with ram := m } ∧
      ramGet m a.toNat = v ∧ ∀ n, n ≠ a.toNat → ramGet m n = ramGet s.ram n :=
  ⟨ramSet s.ram a.toNat v, memWrite_of_locate (locate_gpr h), ramGet_ramSet_same hram a.toNat v,
    fun _ hn => ramGet_ramSet_other s.ram a.toNat v hn⟩

theorem memWrite_indf (hwf : s.part.wf = true) (h : classOf s.part a = .indf) :
    memWrite u s a v = if classOf s.part s.fsr = .indf then some s else memWrite u s s.fsr v := by
  have hloc := locate_indf hwf h
  split at hloc
  · next hfsr => rw [if_pos hfsr, memWrite_of_locate hloc, writeLoc]
  · next hfsr => rw [if_neg hfsr, memWrite_congr hloc]

/-- R31 as bits 7:5, bits 4:3 and bits 2:0 of STATUS. -/
theorem statusAfterFileWrite_bits (u : FlagUpdate) (v old : Byte) :
    (∀ j, 5 ≤ j → (statusAfterFileWrite u v old).getLsbD j = v.getLsbD j) ∧
    (∀ j, j = 3 ∨ j = 4 → (statusAfterFileWrite u v old).getLsbD j = old.getLsbD j) ∧
    (∀ j, j < 3 → (statusAfterFileWrite u v old).getLsbD j =
      if u = ⟨none, none, none⟩ then v.getLsbD j else old.getLsbD j) := by
  refine ⟨fun j hj => ?_, fun j hj => ?_, fun j hj => ?_⟩ <;> rw [statusAfterFileWrite_getLsbD]
  · rw [if_neg (by unfold bitTO bitPD; omega), if_pos (.inl hj)]
  · rw [if_pos (by unfold bitTO bitPD; omega)]
  · rw [if_neg (by unfold bitTO bitPD; omega)]
    have hlow : ¬5 ≤ j := by omega
    simp only [hlow, false_or, affectsNone_iff]

/-- A write of PCL is a jump into the block PCLATH selects (R19). -/
theorem writeSfr_pcl (u : FlagUpdate) (v : Byte) (s : State) :
    writeSfr u .pcl v s = { s with pc := BitVec.ofNat 13 (256 * s.pclath.toNat + v.toNat) } := by
  rw [← pclath_append_toNat, BitVec.ofNat_toNat, BitVec.setWidth_eq, writeSfr]

/-- Bits 7:5 of a byte written to PCLATH are discarded (R20). -/
theorem writeSfr_pclath (u : FlagUpdate) (v : Byte) (s : State) :
    writeSfr u .pclath v s = { s with pclath := BitVec.ofNat 5 (v.toNat % 32) } := by
  have hlow : v.extractLsb' 0 5 = BitVec.ofNat 5 (v.toNat % 32) := by
    apply BitVec.eq_of_toNat_eq
    simp
  rw [← hlow, writeSfr]

end

/-- Settles O26, class by class: the location, then what is written there. -/
theorem writeByClassOfAddress : Obligations.WriteByClassOfAddress := by
  intro u s a v hwf hram
  refine ⟨memWrite_gpr hram, fun target h => memWrite_congr (locate_mirror hwf h),
    fun h => ⟨_, memWrite_core h, statusAfterFileWrite_bits u v s.status⟩, fun h => ?pcl, fun h => ?pclath,
    memWrite_core, memWrite_core, memWrite_core, memWrite_indf hwf,
    fun n h => memWrite_of_locate (locate_peripheral h), fun h => ?unimplemented⟩
  case pcl => rw [memWrite_core h, writeSfr_pcl]
  case pclath => rw [memWrite_core h, writeSfr_pclath]
  case unimplemented => rw [memWrite, locate_unimplemented h, Option.map_none]

/-! ### The addresses the core and the source fix -/

/-- The addresses the source fixes beside STATUS: PORTA and a general-purpose register (R30). -/
theorem classOf_sourceAddresses (hwf : p.wf = true) :
    classOf p 0x05 = .peripheral .porta ∧ classOf p 0x0F = .gpr := by
  simp only [Part.wf, Part.wfSourceAddresses, Bool.and_eq_true, beq_iff_eq] at hwf
  obtain ⟨⟨⟨-, ⟨-, hporta⟩, hgpr⟩, -⟩, -⟩ := hwf
  exact ⟨hporta, hgpr⟩

/-- In a known bank a file operand is the location of a known address (10_state.md R11). -/
theorem operand_of_bank {b : Bool} (f : FAddr) (h : s.status.getLsbD 5 = b) :
    operand s f = locate s (BitVec.ofBool b ++ f) := by
  rw [operand, ea, bitRP0, h]

/-- Settles O32: the registers of both banks, OPTION_REG in Bank 1, the source's two addresses in Bank 0. -/
theorem coreRegistersAtTheirAddresses : Obligations.CoreRegistersAtTheirAddresses := by
  intro s hwf
  obtain ⟨hporta, hgpr⟩ := classOf_sourceAddresses hwf
  refine ⟨operand_pcl hwf, operand_status hwf, operand_core hwf (by decide) (by decide),
    operand_core hwf (by decide) (by decide), operand_core hwf (by decide) (by decide), fun hbank1 => ?_,
    fun hbank0 => ⟨?_, ?_⟩⟩
  · exact (operand_of_bank 0x01 hbank1).trans (locate_core (classOf_coreAddresses hwf (by decide)))
  · exact (operand_of_bank 0x05 hbank0).trans (locate_peripheral hporta)
  · exact (operand_of_bank 0x0F hbank0).trans (locate_gpr hgpr)

end Sys2Proof.Proofs.DataMemory
end

section
/-! PROOFS. The decoder and the encoder: which words lie in which row, what the decoder makes of them, and the word of
every instruction in numbers (30_encoding.md R60 to R70, R75). The decoder looks at slices of a word, the table at
masks; slices are the common ground. simp's own lemmas on slices and bits are left out where they would take a slice
apart. -/

namespace Sys2Proof.Proofs.Encoding

open Sys2Proof Sys2Proof.Machine Sys2Proof.Laws Sys2Proof.Proofs.ProgramMemory

variable {w : IWord} {i : Instr} {r : OpcodeRow}

/-! ### Rows and slices of a word -/

/-- A part of a word: the bit it starts at and its length. -/
abbrev Slice := Nat × Nat

/-- The slices say all of the row: they hold every bit of its mask, and its pattern has no bit beside its mask. -/
def Cover (parts : List Slice) (r : OpcodeRow) : Prop :=
  r.pattern &&& r.mask = r.pattern ∧
  ∀ j : Fin 14, r.mask.getLsbD j = true → ∃ p ∈ parts, p.1 ≤ j ∧ j < p.1 + p.2

/-- A word of the row agrees with it slice by slice. -/
theorem slice_of_matches (h : r.matches w = true) (start len : Nat) :
    w.extractLsb' start len &&& r.mask.extractLsb' start len = r.pattern.extractLsb' start len := by
  rw [← BitVec.extractLsb'_and, beq_iff_eq.mp h]

/-- A slice without a free bit is the pattern's. -/
theorem fixed_of_matches (h : r.matches w = true) (start len : Nat)
    (hfixed : r.mask.extractLsb' start len = BitVec.allOnes len) :
    w.extractLsb' start len = r.pattern.extractLsb' start len := by
  rw [← slice_of_matches h start len, hfixed, BitVec.and_allOnes]

/-- A bit of the mask is the pattern's. -/
theorem bit_of_matches (h : r.matches w = true) (j : Nat) (hfixed : r.mask.getLsbD j = true) :
    w.getLsbD j = r.pattern.getLsbD j := by
  rw [← beq_iff_eq.mp h, BitVec.getLsbD_and, hfixed, Bool.and_true]

/-- A word that agrees with the row on slices that cover it lies in the row. -/
theorem matches_of_slices (parts : List Slice) (hcover : Cover parts r)
    (h : ∀ p ∈ parts, w.extractLsb' p.1 p.2 &&& r.mask.extractLsb' p.1 p.2 = r.pattern.extractLsb' p.1 p.2) :
    r.matches w = true := by
  obtain ⟨hpattern, hmask⟩ := hcover
  refine CanonicalWord.row_of_bits fun j => ?_
  cases hj : r.mask.getLsbD j with
  | false => rw [← hpattern, BitVec.getLsbD_and, hj, Bool.and_false, Bool.and_false]
  | true =>
    obtain ⟨p, hp, hlo, hhi⟩ := hmask j hj
    have hbit := congrArg (·.getLsbD (j - p.1)) (h p hp)
    have hlt : j - p.1 < p.2 := by omega
    simpa [hlt, Nat.add_sub_cancel' hlo, ← BitVec.getLsbD_eq_getElem, hj] using hbit

theorem slice_one (w : IWord) (j : Nat) : w.extractLsb' j 1 = BitVec.ofBool (w.getLsbD j) := by
  ext k hk
  simp [Nat.lt_one_iff.mp hk]

/-- The canonical word of an instruction lies in its row: the laws of the 36 instructions in one. -/
theorem matches_encode : ∀ i : Instr, (opcodeRow i).matches (encode i) = true
  | .nop => CanonicalWord.nop
  | .ret => CanonicalWord.ret
  | .retfie => CanonicalWord.retfie
  | .option => CanonicalWord.option
  | .sleep => CanonicalWord.sleep
  | .clrwdt => CanonicalWord.clrwdt
  | .movwf f => CanonicalWord.movwf f
  | .clrw => CanonicalWord.clrw
  | .clrf f => CanonicalWord.clrf f
  | .subwf f d => CanonicalWord.subwf f d
  | .decf f d => CanonicalWord.decf f d
  | .iorwf f d => CanonicalWord.iorwf f d
  | .andwf f d => CanonicalWord.andwf f d
  | .xorwf f d => CanonicalWord.xorwf f d
  | .addwf f d => CanonicalWord.addwf f d
  | .movf f d => CanonicalWord.movf f d
  | .comf f d => CanonicalWord.comf f d
  | .incf f d => CanonicalWord.incf f d
  | .decfsz f d => CanonicalWord.decfsz f d
  | .rrf f d => CanonicalWord.rrf f d
  | .rlf f d => CanonicalWord.rlf f d
  | .swapf f d => CanonicalWord.swapf f d
  | .incfsz f d => CanonicalWord.incfsz f d
  | .bcf f b => CanonicalWord.bcf f b
  | .bsf f b => CanonicalWord.bsf f b
  | .btfsc f b => CanonicalWord.btfsc f b
  | .btfss f b => CanonicalWord.btfss f b
  | .call k => CanonicalWord.call k
  | .goto k => CanonicalWord.goto k
  | .movlw k => CanonicalWord.movlw k
  | .retlw k => CanonicalWord.retlw k
  | .iorlw k => CanonicalWord.iorlw k
  | .andlw k => CanonicalWord.andlw k
  | .xorlw k => CanonicalWord.xorlw k
  | .sublw k => CanonicalWord.sublw k
  | .addlw k => CanonicalWord.addlw k

/-! ### The operands a word holds -/

/-- The f field, bits 6:0 (R61, R62). -/
def fileOf (w : IWord) : FAddr := w.extractLsb' 0 7

/-- The d field, bit 7 (R61). -/
def destOf (w : IWord) : Dest := Dest.ofBit (w.getLsbD 7)

/-- The b field, bits 9:7 (R62). -/
def bitOf (w : IWord) : BitVec 3 := w.extractLsb' 7 3

/-- The 8-bit k field, bits 7:0 (R63). -/
def literalOf (w : IWord) : Byte := w.extractLsb' 0 8

/-- The 11-bit k field, bits 10:0 (R64). -/
def targetOf (w : IWord) : BitVec 11 := w.extractLsb' 0 11

/-- The instruction of the given one's row with the operands the word holds. -/
def reread (w : IWord) : Instr → Instr
  | .nop => .nop
  | .ret => .ret
  | .retfie => .retfie
  | .option => .option
  | .sleep => .sleep
  | .clrwdt => .clrwdt
  | .movwf _ => .movwf (fileOf w)
  | .clrw => .clrw
  | .clrf _ => .clrf (fileOf w)
  | .subwf _ _ => .subwf (fileOf w) (destOf w)
  | .decf _ _ => .decf (fileOf w) (destOf w)
  | .iorwf _ _ => .iorwf (fileOf w) (destOf w)
  | .andwf _ _ => .andwf (fileOf w) (destOf w)
  | .xorwf _ _ => .xorwf (fileOf w) (destOf w)
  | .addwf _ _ => .addwf (fileOf w) (destOf w)
  | .movf _ _ => .movf (fileOf w) (destOf w)
  | .comf _ _ => .comf (fileOf w) (destOf w)
  | .incf _ _ => .incf (fileOf w) (destOf w)
  | .decfsz _ _ => .decfsz (fileOf w) (destOf w)
  | .rrf _ _ => .rrf (fileOf w) (destOf w)
  | .rlf _ _ => .rlf (fileOf w) (destOf w)
  | .swapf _ _ => .swapf (fileOf w) (destOf w)
  | .incfsz _ _ => .incfsz (fileOf w) (destOf w)
  | .bcf _ _ => .bcf (fileOf w) (bitOf w)
  | .bsf _ _ => .bsf (fileOf w) (bitOf w)
  | .btfsc _ _ => .btfsc (fileOf w) (bitOf w)
  | .btfss _ _ => .btfss (fileOf w) (bitOf w)
  | .call _ => .call (targetOf w)
  | .goto _ => .goto (targetOf w)
  | .movlw _ => .movlw (literalOf w)
  | .retlw _ => .retlw (literalOf w)
  | .iorlw _ => .iorlw (literalOf w)
  | .andlw _ => .andlw (literalOf w)
  | .xorlw _ => .xorlw (literalOf w)
  | .sublw _ => .sublw (literalOf w)
  | .addlw _ => .addlw (literalOf w)

@[simp] theorem opcodeRow_reread (w : IWord) (i : Instr) : opcodeRow (reread w i) = opcodeRow i := by
  cases i <;> rfl

/-! ### A word of a row decodes to the row's instruction -/

/-- The opcodes of a row with two free opcode bits (MOVLW, RETLW; R68). -/
theorem opcode_of_two_bits {m p x : BitVec 4} (hm : m = 0b1100) (h : x &&& m = p) :
    x = p ∨ x = p + 1 ∨ x = p + 2 ∨ x = p + 3 := by
  subst hm
  revert p x
  decide

/-- The opcodes of a row with one free opcode bit (SUBLW, ADDLW; R68). -/
theorem opcode_of_three_bits {m p x : BitVec 4} (hm : m = 0b1110) (h : x &&& m = p) : x = p ∨ x = p + 1 := by
  subst hm
  revert p x
  decide

/-- The low bits of NOP's words (R68). -/
theorem low_of_nop {m p x : BitVec 7} (hm : m = 0b0011111) (hp : p = 0) (h : x &&& m = p) :
    x = 0x00 ∨ x = 0x20 ∨ x = 0x40 ∨ x = 0x60 := by
  subst hm hp
  revert x
  decide

/-- By format, as the decoder's tree looks at the word: bits 13:12, the opcode bits, and bit 7 or 11 or the low bits. -/
theorem decode_of_matches (h : (opcodeRow i).matches w = true) : decode w = some (reread w i) := by
  have htop := fixed_of_matches h 12 2 (by cases i <;> simp [opcodeRow])
  cases i
  case nop =>
    have hop := fixed_of_matches h 8 4 (by simp [opcodeRow])
    have hbit := bit_of_matches h 7 (by simp [opcodeRow])
    have hlow := low_of_nop (by simp [opcodeRow]) (by simp [opcodeRow]) (slice_of_matches h 0 7)
    rcases hlow with hlow | hlow | hlow | hlow <;>
      simp [decode, decodeByteOriented, decodeControl, htop, hop, hbit, hlow, opcodeRow, reread,
        -BitVec.extractLsb'_toNat, -BitVec.getLsbD_eq_getElem]
  case ret | retfie | option | sleep | clrwdt =>
    rw [← BitVec.extractLsb'_eq_self (x := w), fixed_of_matches h 0 14 (by simp [opcodeRow])]
    rfl
  case movwf | clrf | clrw =>
    have hop := fixed_of_matches h 8 4 (by simp [opcodeRow])
    have hbit := bit_of_matches h 7 (by simp [opcodeRow])
    simp [decode, decodeByteOriented, htop, hop, hbit, opcodeRow, reread, fileOf, -BitVec.extractLsb'_toNat,
      -BitVec.getLsbD_eq_getElem]
  case subwf | decf | iorwf | andwf | xorwf | addwf | movf | comf | incf | decfsz | rrf | rlf | swapf | incfsz =>
    have hop := fixed_of_matches h 8 4 (by simp [opcodeRow])
    simp [decode, decodeByteOriented, htop, hop, opcodeRow, reread, fileOf, destOf, -BitVec.extractLsb'_toNat]
  case bcf | bsf | btfsc | btfss =>
    have hop := fixed_of_matches h 10 2 (by simp [opcodeRow])
    simp [decode, decodeBitOriented, htop, hop, opcodeRow, reread, bitOf, fileOf, -BitVec.extractLsb'_toNat]
  case call | goto =>
    have hbit := bit_of_matches h 11 (by simp [opcodeRow])
    simp [decode, decodeCallGoto, htop, hbit, opcodeRow, reread, targetOf, -BitVec.extractLsb'_toNat,
      -BitVec.getLsbD_eq_getElem]
  case iorlw | andlw | xorlw =>
    have hop := fixed_of_matches h 8 4 (by simp [opcodeRow])
    simp [decode, decodeLiteral, htop, hop, opcodeRow, reread, literalOf, -BitVec.extractLsb'_toNat]
  case movlw | retlw =>
    rcases opcode_of_two_bits (by simp [opcodeRow]) (slice_of_matches h 8 4) with hop | hop | hop | hop <;>
      simp [decode, decodeLiteral, htop, hop, opcodeRow, reread, literalOf, -BitVec.extractLsb'_toNat]
  case sublw | addlw =>
    rcases opcode_of_three_bits (by simp [opcodeRow]) (slice_of_matches h 8 4) with hop | hop <;>
      simp [decode, decodeLiteral, htop, hop, opcodeRow, reread, literalOf, -BitVec.extractLsb'_toNat]

/-! ### A word that decodes lies in the row of its instruction -/

theorem matches_of_decodeLiteral (htop : (w.extractLsb' 12 2).toNat = 3)
    (h : decodeLiteral w = some i) : (opcodeRow i).matches w = true := by
  unfold decodeLiteral at h
  split at h
  case h_16 => cases h
  all_goals
    next hop =>
    cases h
    refine matches_of_slices (r := ⟨_, _⟩) [(12, 2), (8, 4)] ⟨rfl, by decide⟩ ?_
    simp [← BitVec.toNat_inj, htop, hop, -BitVec.extractLsb'_toNat]

theorem matches_of_decodeCallGoto (htop : (w.extractLsb' 12 2).toNat = 2)
    (h : decodeCallGoto w = some i) : (opcodeRow i).matches w = true := by
  unfold decodeCallGoto at h
  split at h
  all_goals
    next hop =>
    cases h
    refine matches_of_slices (r := ⟨_, _⟩) [(12, 2), (11, 1)] ⟨rfl, by decide⟩ ?_
    simp [slice_one, ← BitVec.toNat_inj, htop, hop, -BitVec.extractLsb'_toNat, -BitVec.getLsbD_eq_getElem]

theorem matches_of_decodeBitOriented (htop : (w.extractLsb' 12 2).toNat = 1)
    (h : decodeBitOriented w = some i) : (opcodeRow i).matches w = true := by
  unfold decodeBitOriented at h
  split at h
  case h_5 => cases h
  all_goals
    next hop =>
    cases h
    refine matches_of_slices (r := ⟨_, _⟩) [(12, 2), (10, 2)] ⟨rfl, by decide⟩ ?_
    simp [← BitVec.toNat_inj, htop, hop, -BitVec.extractLsb'_toNat]

theorem matches_of_decodeControl (htop : (w.extractLsb' 12 2).toNat = 0)
    (hop : (w.extractLsb' 8 4).toNat = 0) (hbit : ¬w.getLsbD 7 = true)
    (h : decodeControl w = some i) : (opcodeRow i).matches w = true := by
  unfold decodeControl at h
  split at h
  case h_10 => cases h
  all_goals
    next hlow =>
    cases h
    refine matches_of_slices (r := ⟨_, _⟩) [(12, 2), (8, 4), (7, 1), (0, 7)] ⟨rfl, by decide⟩ ?_
    simp [slice_one, ← BitVec.toNat_inj, htop, hop, hbit, hlow, -BitVec.extractLsb'_toNat,
      -BitVec.getLsbD_eq_getElem]

theorem matches_of_decodeByteOriented (htop : (w.extractLsb' 12 2).toNat = 0)
    (h : decodeByteOriented w = some i) : (opcodeRow i).matches w = true := by
  unfold decodeByteOriented at h
  split at h
  case h_1 hop =>
    split at h
    next hbit =>
      cases h
      refine matches_of_slices (r := ⟨_, _⟩) [(12, 2), (8, 4), (7, 1)] ⟨rfl, by decide⟩ ?_
      simp [slice_one, ← BitVec.toNat_inj, htop, hop, hbit, -BitVec.extractLsb'_toNat, -BitVec.getLsbD_eq_getElem]
    next hbit => exact matches_of_decodeControl htop hop hbit h
  case h_2 hop =>
    split at h
    all_goals
      next hbit =>
      cases h
      refine matches_of_slices (r := ⟨_, _⟩) [(12, 2), (8, 4), (7, 1)] ⟨rfl, by decide⟩ ?_
      simp [slice_one, ← BitVec.toNat_inj, htop, hop, hbit, -BitVec.extractLsb'_toNat, -BitVec.getLsbD_eq_getElem]
  case h_17 => cases h
  all_goals
    next hop =>
    cases h
    refine matches_of_slices (r := ⟨_, _⟩) [(12, 2), (8, 4)] ⟨rfl, by decide⟩ ?_
    simp [← BitVec.toNat_inj, htop, hop, -BitVec.extractLsb'_toNat]

theorem matches_of_decode (h : decode w = some i) : (opcodeRow i).matches w = true := by
  unfold decode at h
  split at h
  · next htop => exact matches_of_decodeByteOriented htop h
  · next htop => exact matches_of_decodeBitOriented htop h
  · next htop => exact matches_of_decodeCallGoto htop h
  · next htop => exact matches_of_decodeLiteral htop h
  · cases h

/-! ### The operands written back -/

/-- Reading a field where it stands and putting it there again masks the word. -/
theorem field_in_place (w : IWord) (start len : Nat) :
    (w.extractLsb' start len).setWidth 14 <<< start = w &&& (BitVec.allOnes len).setWidth 14 <<< start := by
  ext j hj
  by_cases hlo : j < start
  · simp [hlo]
  · simp [hlo, Nat.add_sub_cancel' (Nat.le_of_not_lt hlo), Bool.and_comm, hj]

theorem toBit_destOf (w : IWord) : (destOf w).toBit = w.extractLsb' 7 1 := by
  rw [slice_one, destOf]
  cases w.getLsbD 7 <;> rfl

theorem fileOf_in_place (w : IWord) : (fileOf w).setWidth 14 = w &&& 0x007F := by
  simpa [fileOf] using field_in_place w 0 7

theorem destOf_in_place (w : IWord) : (destOf w).toBit.setWidth 14 <<< 7 = w &&& 0x0080 := by
  simpa [toBit_destOf] using field_in_place w 7 1

theorem bitOf_in_place (w : IWord) : (bitOf w).setWidth 14 <<< 7 = w &&& 0x0380 := by
  simpa [bitOf] using field_in_place w 7 3

theorem literalOf_in_place (w : IWord) : (literalOf w).setWidth 14 = w &&& 0x00FF := by
  simpa [literalOf] using field_in_place w 0 8

theorem targetOf_in_place (w : IWord) : (targetOf w).setWidth 14 = w &&& 0x07FF := by
  simpa [targetOf] using field_in_place w 0 11

/-- The fields a word holds are its bits beside the row's mask and the don't-care bits. -/
theorem encodeFields_reread (w : IWord) (i : Instr) :
    encodeFields (reread w i) = w &&& ~~~((opcodeRow i).mask ||| dontCareBits i) := by
  cases i
  case movwf | clrf => simp [reread, encodeFields, fileOf_in_place, opcodeRow, dontCareBits]
  case subwf | decf | iorwf | andwf | xorwf | addwf | movf | comf | incf | decfsz | rrf | rlf | swapf | incfsz =>
    simp [reread, encodeFields, fileOf_in_place, destOf_in_place, opcodeRow, dontCareBits,
      ← BitVec.and_or_distrib_left]
  case bcf | bsf | btfsc | btfss =>
    simp [reread, encodeFields, fileOf_in_place, bitOf_in_place, opcodeRow, dontCareBits,
      ← BitVec.and_or_distrib_left]
  case call | goto => simp [reread, encodeFields, targetOf_in_place, opcodeRow, dontCareBits]
  case movlw | retlw | iorlw | andlw | xorlw | sublw | addlw =>
    simp [reread, encodeFields, literalOf_in_place, opcodeRow, dontCareBits]
  all_goals simp [reread, encodeFields, opcodeRow, dontCareBits]

/-- Where two masks share no bit, the bits outside the one are those of the other and those of neither. -/
theorem not_eq_or_of_disjoint {m d : IWord} (h : m &&& d = 0) : ~~~d = m ||| ~~~(m ||| d) := by
  ext j hj
  have hbit : (m[j] && d[j]) = false := by simpa [-Bool.and_eq_false_imp] using congrArg (·[j]) h
  cases hm : m[j] <;> simp_all

theorem not_dontCareBits (i : Instr) :
    ~~~dontCareBits i = (opcodeRow i).mask ||| ~~~((opcodeRow i).mask ||| dontCareBits i) :=
  not_eq_or_of_disjoint (by cases i <;> simp [opcodeRow, dontCareBits])

/-- The canonical word of what a word of the row holds is the word without its don't-care bits. -/
theorem encode_reread (h : (opcodeRow i).matches w = true) : encode (reread w i) = w &&& ~~~dontCareBits i := by
  rw [encode, opcodeRow_reread, encodeFields_reread, not_dontCareBits, BitVec.and_or_distrib_left, beq_iff_eq.mp h]

theorem not_dontCareBits_and_mask (i : Instr) : ~~~dontCareBits i &&& (opcodeRow i).mask = (opcodeRow i).mask := by
  rw [not_dontCareBits]
  ext j hj
  cases hm : (opcodeRow i).mask[j] <;> simp [hm]

/-- A word that is canonical but for its don't-care bits lies in the row. -/
theorem matches_of_canonical (h : w &&& ~~~dontCareBits i = encode i) : (opcodeRow i).matches w = true := by
  rw [OpcodeRow.matches, ← not_dontCareBits_and_mask, ← BitVec.and_assoc, h]
  exact matches_encode i

/-! ### Words in numbers -/

/-- An OR with what fits below the lowest bit is a sum. -/
theorem toNat_or_of_low {p x : IWord} (n : Nat) (hp : p.toNat % 2 ^ n = 0) (hx : x.toNat < 2 ^ n) :
    (p ||| x).toNat = p.toNat + x.toNat := by
  rw [BitVec.toNat_or, ← Nat.div_add_mod p.toNat (2 ^ n), hp, Nat.add_zero, Nat.two_pow_add_eq_or_of_lt hx]

/-- A field above the f field. -/
theorem toNat_above_file {n : Nat} (x : BitVec n) (hn : n ≤ 7) (f : FAddr) :
    (x.setWidth 14 <<< 7 ||| f.setWidth 14).toNat = 128 * x.toNat + f.toNat := by
  have hx : x.toNat < 2 ^ 7 := Nat.lt_of_lt_of_le x.isLt (Nat.pow_le_pow_right (by decide) hn)
  have hshift : (x.setWidth 14 <<< 7).toNat = 128 * x.toNat := by
    simp [Nat.shiftLeft_eq]
    omega
  rw [toNat_or_of_low 7 (by omega) (by simp; omega), hshift, BitVec.toNat_setWidth_of_le (by decide)]

theorem toNat_toBit (d : Dest) : d.toBit.toNat = dBit d := by
  cases d <;> rfl

theorem dBit_lt (d : Dest) : dBit d < 2 := by
  cases d <;> decide

/-- The fields stand below the pattern: the OR of R75 is a sum. -/
theorem encode_toNat (i : Instr) : (encode i).toNat = (opcodeRow i).pattern.toNat + (encodeFields i).toNat := by
  cases i
  case movwf | clrf => exact toNat_or_of_low 7 (by simp [opcodeRow]) (by simp [encodeFields]; omega)
  case bcf f b | bsf f b | btfsc f b | btfss f b =>
    exact toNat_or_of_low 10 (by simp [opcodeRow]) (by rw [encodeFields, toNat_above_file b (by decide) f]; omega)
  case subwf f d | decf f d | iorwf f d | andwf f d | xorwf f d | addwf f d | movf f d | comf f d | incf f d |
      decfsz f d | rrf f d | rlf f d | swapf f d | incfsz f d =>
    exact toNat_or_of_low 8 (by simp [opcodeRow]) (by rw [encodeFields, toNat_above_file d.toBit (by decide) f]; omega)
  case call | goto => exact toNat_or_of_low 11 (by simp [opcodeRow]) (by simp [encodeFields]; omega)
  case movlw | retlw | iorlw | andlw | xorlw | sublw | addlw =>
    exact toNat_or_of_low 8 (by simp [opcodeRow]) (by simp [encodeFields]; omega)
  all_goals rfl

/-- Settles O2, by format. -/
theorem wordsInNumbers : Obligations.WordsInNumbers := by
  refine ⟨fun address => ?target, fun f d b k j => ⟨?control, ?file, ?fileDest, ?fileBit, ?jump, ?literal⟩⟩
  case target => simp [assembleTarget]
  case control => exact ⟨rfl, rfl, rfl, rfl, rfl, rfl, rfl⟩
  case fileDest =>
    simp [EncodesAs, encode_toNat, encodeFields, opcodeRow, toNat_above_file, toNat_toBit, Nat.add_assoc,
      -BitVec.toNat_or]
  case fileBit =>
    simp [EncodesAs, encode_toNat, encodeFields, opcodeRow, toNat_above_file, Nat.add_assoc, -BitVec.toNat_or]
  all_goals
    simp [EncodesAs, encode_toNat, encodeFields, opcodeRow]
    omega

theorem fileOf_eq {f : FAddr} (h : w.toNat % 128 = f.toNat) : fileOf w = f :=
  BitVec.eq_of_toNat_eq (by rw [fileOf, BitVec.extractLsb'_toNat, Nat.shiftRight_zero, ← h])

theorem literalOf_eq {k : Byte} (h : w.toNat % 256 = k.toNat) : literalOf w = k :=
  BitVec.eq_of_toNat_eq (by rw [literalOf, BitVec.extractLsb'_toNat, Nat.shiftRight_zero, ← h])

theorem targetOf_eq {k : BitVec 11} (h : w.toNat % 2048 = k.toNat) : targetOf w = k :=
  BitVec.eq_of_toNat_eq (by rw [targetOf, BitVec.extractLsb'_toNat, Nat.shiftRight_zero, ← h])

theorem bitOf_eq {b : BitVec 3} (h : w.toNat / 128 % 8 = b.toNat) : bitOf w = b :=
  BitVec.eq_of_toNat_eq (by rw [bitOf, BitVec.extractLsb'_toNat, Nat.shiftRight_eq_div_pow, ← h])

theorem destOf_eq {d : Dest} (h : w.toNat / 128 % 2 = dBit d) : destOf w = d := by
  have hd : dBit (destOf w) = dBit d := by
    rw [← h, ← toNat_toBit, toBit_destOf, BitVec.extractLsb'_toNat, Nat.shiftRight_eq_div_pow]
  cases d <;> cases hw : destOf w <;> simp [hw, dBit] at hd ⊢

/-- The operands stand in the canonical word. -/
theorem reread_encode (i : Instr) : reread (encode i) i = i := by
  have hw := encode_toNat i
  cases i
  case movwf f | clrf f =>
    simp [encodeFields, opcodeRow] at hw
    rw [reread, fileOf_eq (f := f) (by omega)]
  case subwf f d | decf f d | iorwf f d | andwf f d | xorwf f d | addwf f d | movf f d | comf f d | incf f d |
      decfsz f d | rrf f d | rlf f d | swapf f d | incfsz f d =>
    have hd := dBit_lt d
    simp [encodeFields, opcodeRow, toNat_above_file, toNat_toBit, -BitVec.toNat_or] at hw
    rw [reread, fileOf_eq (f := f) (by omega), destOf_eq (d := d) (by omega)]
  case bcf f b | bsf f b | btfsc f b | btfss f b =>
    simp [encodeFields, opcodeRow, toNat_above_file, -BitVec.toNat_or] at hw
    rw [reread, fileOf_eq (f := f) (by omega), bitOf_eq (b := b) (by omega)]
  case call k | goto k =>
    simp [encodeFields, opcodeRow] at hw
    rw [reread, targetOf_eq (k := k) (by omega)]
  case movlw k | retlw k | iorlw k | andlw k | xorlw k | sublw k | addlw k =>
    simp [encodeFields, opcodeRow] at hw
    rw [reread, literalOf_eq (k := k) (by omega)]
  all_goals rfl

/-! ### Decoding inverts encoding -/

theorem decode_encode (i : Instr) : decode (encode i) = some i := by
  rw [decode_of_matches (matches_encode i), reread_encode]

/-- The container of a word decodes as the word. -/
theorem decodeContainer_word (w : IWord) : decodeContainer (0b00#2 ++ w) = decode w := by
  rw [decodeContainer, containerIsWord, BitVec.extractLsb'_append_eq_left, BitVec.extractLsb'_append_eq_right]
  rfl

theorem decodeContainer_encodeContainer (i : Instr) : decodeContainer (encodeContainer i) = some i := by
  rw [encodeContainer, decodeContainer_word, decode_encode]

/-- Settles O1: the canonical word lies in its row, and its operands are read back. -/
theorem decodeOfEncodeIsIdentity : Obligations.DecodeOfEncodeIsIdentity := fun i =>
  ⟨decode_encode i, decodeContainer_encodeContainer i⟩

/-- Settles O3, by the two directions of the decoder and the table. -/
theorem decodeFollowsOpcodeTable : Obligations.DecodeFollowsOpcodeTable := by
  intro w i
  constructor
  · intro h
    exact ⟨reread w i, decode_of_matches h, opcodeRow_reread w i⟩
  · rintro ⟨j, hj, hrow⟩
    exact hrow ▸ matches_of_decode hj

/-- Settles O4: either side puts the word in the row of `i`; there both say that its operands are those of `i`. -/
theorem dontCareBitsTakeNoPartInDecoding : Obligations.DontCareBitsTakeNoPartInDecoding := by
  intro w i
  constructor
  · intro h
    have hmatches := matches_of_decode h
    have hoperands : reread w i = i := Option.some_inj.mp ((decode_of_matches hmatches).symm.trans h)
    rw [← encode_reread hmatches, hoperands]
  · intro h
    have hmatches := matches_of_canonical h
    have hword : encode (reread w i) = encode i := (encode_reread hmatches).trans h
    rw [decode_of_matches hmatches, ← decode_encode, hword, decode_encode]

/-- Settles O7: the seven words are canonical words. -/
theorem sampleWordsDecode : Obligations.SampleWordsDecode :=
  ⟨decode_encode (.addwf 0x20 .w), decode_encode (.subwf 0x0F .f), decode_encode (.bsf 5 7),
    decode_encode (.btfsc 3 0), decode_encode (.call 0x10), decode_encode (.xorlw 0xAF), decode_encode .retfie⟩

/-! ### Containers -/

theorem containerIsWord_iff (c : Container) : containerIsWord c = true ↔ c.toNat < 2 ^ 14 := by
  have hc := c.isLt
  rw [containerIsWord, beq_iff_eq, ← BitVec.toNat_inj, BitVec.extractLsb'_toNat, Nat.shiftRight_eq_div_pow]
  simp only [BitVec.ofNat_eq_ofNat, BitVec.toNat_ofNat, Nat.zero_mod, Nat.reducePow] at hc ⊢
  omega

/-- A container with bits 15:14 zero holds the word of its low bits (R69). -/
theorem decodeContainer_of_lt {c : Container} (h : c.toNat < 2 ^ 14) :
    decodeContainer c = decode (BitVec.ofNat 14 c.toNat) := by
  rw [decodeContainer, if_pos ((containerIsWord_iff c).mpr h)]
  rfl

theorem decodeContainer_ofNat (w : IWord) : decodeContainer (BitVec.ofNat 16 w.toNat) = decode w := by
  have hw := w.isLt
  have hc : (BitVec.ofNat 16 w.toNat).toNat = w.toNat := Nat.mod_eq_of_lt (by omega)
  rw [decodeContainer_of_lt (hc.symm ▸ hw), hc, BitVec.ofNat_toNat, BitVec.setWidth_eq]

/-- Settles O6, by whether bits 15:14 are zero. -/
theorem containerAbove14BitsIsNoWord : Obligations.ContainerAbove14BitsIsNoWord := fun c =>
  ⟨decodeContainer_of_lt, fun h => if_neg fun hword => Nat.not_lt.mpr h ((containerIsWord_iff c).mp hword)⟩

/-! ### The words that encode nothing -/

/-- Bits 6:0 of the words below 0x0080 that decode: NOP's four and the control instructions' (R66, R68). -/
def definedControl : List Nat := [0x00, 0x20, 0x40, 0x60, 0x08, 0x09, 0x62, 0x63, 0x64]

theorem decodeControl_eq_none (w : IWord) : decodeControl w = none ↔
    (w.extractLsb' 0 7).toNat ∉ definedControl := by
  unfold decodeControl
  split <;> simp_all [definedControl]

theorem decodeByteOriented_eq_none (w : IWord) : decodeByteOriented w = none ↔
    (w.extractLsb' 8 4).toNat = 0 ∧ w.getLsbD 7 = false ∧ decodeControl w = none := by
  have hop := (w.extractLsb' 8 4).isLt
  unfold decodeByteOriented
  split
  case h_1 h => cases hbit : w.getLsbD 7 <;> simp [h]
  case h_2 h => cases hbit : w.getLsbD 7 <;> simp [h]
  case h_17 =>
    simp only [imp_false] at *
    omega
  all_goals
    next h => simp [h, -BitVec.extractLsb'_toNat]

theorem decodeBitOriented_ne_none (w : IWord) : decodeBitOriented w ≠ none := by
  have hop := (w.extractLsb' 10 2).isLt
  unfold decodeBitOriented
  split
  case h_5 =>
    simp only [imp_false] at *
    omega
  all_goals simp

theorem decodeCallGoto_ne_none (w : IWord) : decodeCallGoto w ≠ none := by
  unfold decodeCallGoto
  split <;> simp

theorem decodeLiteral_eq_none (w : IWord) : decodeLiteral w = none ↔ (w.extractLsb' 8 4).toNat = 0xB := by
  have hop := (w.extractLsb' 8 4).isLt
  unfold decodeLiteral
  split
  case h_16 =>
    simp only [imp_false, true_iff] at *
    omega
  all_goals
    next h => simp [h, -BitVec.extractLsb'_toNat]

theorem decode_eq_none (w : IWord) : decode w = none ↔
    (w.extractLsb' 12 2).toNat = 0 ∧ decodeByteOriented w = none ∨
      (w.extractLsb' 12 2).toNat = 3 ∧ decodeLiteral w = none := by
  have htop := (w.extractLsb' 12 2).isLt
  unfold decode
  split
  case h_5 =>
    simp only [imp_false] at *
    omega
  all_goals
    next h => simp [h, decodeBitOriented_ne_none, decodeCallGoto_ne_none, -BitVec.extractLsb'_toNat]

/-- The list of R70, in the slices the decoder looks at. -/
theorem undefinedWord_iff (w : IWord) : UndefinedWord w.toNat ↔
    (w.extractLsb' 12 2).toNat = 0 ∧ (w.extractLsb' 8 4).toNat = 0 ∧ w.getLsbD 7 = false ∧
        (w.extractLsb' 0 7).toNat ∉ definedControl ∨
      (w.extractLsb' 12 2).toNat = 3 ∧ (w.extractLsb' 8 4).toNat = 0xB := by
  have hw := w.isLt
  have hbit : w.getLsbD 7 = false ↔ w.toNat / 128 % 2 = 0 := by
    simp [BitVec.getLsbD, Nat.testBit_eq_decide_div_mod_eq]
  simp only [UndefinedWord, hbit, BitVec.extractLsb'_toNat, Nat.shiftRight_eq_div_pow, Nat.reducePow, Nat.div_one]
  have hcontrol : 1 ≤ w.toNat ∧ w.toNat ≤ 127 ∧ w.toNat ∉ [0x08, 0x09, 0x20, 0x40, 0x60, 0x62, 0x63, 0x64] ↔
      w.toNat < 128 ∧ w.toNat % 128 ∉ definedControl := by
    simp only [definedControl, List.mem_cons, List.not_mem_nil, or_false]
    omega
  have hlow : w.toNat < 128 ↔ w.toNat / 4096 % 4 = 0 ∧ w.toNat / 256 % 16 = 0 ∧ w.toNat / 128 % 2 = 0 := by omega
  have hliteral : 0x3B00 ≤ w.toNat ∧ w.toNat ≤ 0x3BFF ↔ w.toNat / 4096 % 4 = 3 ∧ w.toNat / 256 % 16 = 0xB := by
    omega
  rw [hcontrol, hlow, hliteral]
  simp only [and_assoc]

theorem decode_eq_none_iff_undefinedWord (w : IWord) : decode w = none ↔ UndefinedWord w.toNat := by
  rw [decode_eq_none, decodeByteOriented_eq_none, decodeControl_eq_none, decodeLiteral_eq_none, undefinedWord_iff]

/-- A container that decodes to nothing is refused by the fetch (R70, D4). -/
theorem fetchAt_undefined {s : State} {p : PAddr} {c : Container} (h : p.toNat < s.part.progWords)
    (hc : progGet s.prog p.toNat = some c) (hnone : decodeContainer c = none) :
    fetchAt s p = .error .undefinedOpcode := by
  simp [fetchAt, h, hc, hnone]

/-- Settles O5: where the decoder's tree ends in nothing, and the refused fetch of such a word. -/
theorem undefinedWordsAreRefused : Obligations.UndefinedWordsAreRefused := by
  intro w
  refine ⟨decode_eq_none_iff_undefinedWord w, fun hundefined s hwill hpc hc => ?_⟩
  have hnone : decodeContainer (BitVec.ofNat 16 w.toNat) = none := by
    rwa [decodeContainer_ofNat, decode_eq_none_iff_undefinedWord]
  exact step_of_fetch_error hwill (fetchAt_undefined hpc hc hnone)

end Sys2Proof.Proofs.Encoding
end

section
/-! PROOFS. The assembler: what a source text is assembled to, and the shorthands of MOVF (30_encoding.md R71 to
R75). -/

namespace Sys2Proof.Proofs.Assembler

open Sys2Proof Sys2Proof.Machine Sys2Proof.Proofs.Encoding

/-! ### Programs -/

/-- A well-formed program of canonical words, at addresses from the given one to the top of program memory. -/
def CanonicalFrom (address : Nat) (p : Program) : Prop :=
  Program.wf p = true ∧
  ∀ c ∈ p, address ≤ c.1 ∧ c.1 < 8192 ∧ ∃ i, decodeContainer c.2 = some i ∧ encodeContainer i = c.2

theorem canonicalFrom_nil (address : Nat) : CanonicalFrom address [] := ⟨rfl, by simp⟩

/-- A word in front of addresses above it keeps the canonical form. -/
theorem programWf_cons {a : Nat} {x : Container} {p : Program} (hp : Program.wf p = true) (ha : ∀ c ∈ p, a < c.1) :
    Program.wf ((a, x) :: p) = true := by
  cases p with
  | nil => rfl
  | cons c p => simp [Program.wf, ha c List.mem_cons_self, hp]

/-- One more instruction in front, one address below. -/
theorem canonicalFrom_cons {address : Nat} {p : Program} (hp : CanonicalFrom (address + 1) p) (i : Instr)
    (haddress : address < 8192) : CanonicalFrom address ((address, encodeContainer i) :: p) := by
  obtain ⟨hwf, hcells⟩ := hp
  refine ⟨programWf_cons hwf fun c hc => (hcells c hc).1, fun c hc => ?_⟩
  rcases List.mem_cons.mp hc with rfl | hc
  · exact ⟨Nat.le_refl _, haddress, i, decodeContainer_encodeContainer i, rfl⟩
  · obtain ⟨hle, hcell⟩ := hcells c hc
    exact ⟨Nat.le_of_succ_le hle, hcell⟩

/-- Line by line: an instruction gives one word, any other line none. -/
theorem assembleLines_canonical (syms : Symbols) (ls : List SourceLine) : ∀ (address : Nat) (p : Program),
    assembleLines syms address ls = some p → CanonicalFrom address p := by
  induction ls with
  | nil =>
    intro address p h
    rw [assembleLines, Option.some_inj] at h
    exact h ▸ canonicalFrom_nil address
  | cons l ls ih =>
    intro address p h
    cases l with
    | blank => exact ih address p h
    | equ name value => exact ih address p h
    | instr label form operands =>
      rw [assembleLines] at h
      split at h
      · next i q _ hq =>
        split at h
        · next haddress => exact Option.some_inj.mp h ▸ canonicalFrom_cons (ih _ q hq) i haddress
        · cases h
      · cases h

/-- Settles O8, by the lines of the text. -/
theorem assembledProgramDecodes : Obligations.AssembledProgramDecodes := by
  intro address source p h
  rw [assemble] at h
  split at h
  · exact assembleLines_canonical _ _ address p h
  · cases h

/-! ### MOVFW and the omitted destination -/

/-- A file operand and a written destination. -/
theorem assembleOperands_fileDest (syms : Symbols) (i : FAddr → Dest → Instr) (f : Text) {t : Text} {d : Dest}
    (hd : destField t = some d) :
    assembleOperands syms (.fileDest i) [f, t] = (fileField syms f).map fun a => i a d := by
  rw [assembleOperands, hd]
  cases fileField syms f <;> rfl

/-- Settles O9: both shorthands give the f,d form with its destination written out (R73, R74). -/
theorem movfwAndOmittedDestination : Obligations.MovfwAndOmittedDestination := by
  refine ⟨⟨.file Instr.movfw, rfl, fun syms f => ⟨?movfw, rfl⟩⟩, rfl, fun syms f i => ⟨?omitted, rfl⟩⟩
  case movfw => exact (assembleOperands_fileDest syms .movf f rfl).symm
  case omitted => exact (assembleOperands_fileDest syms i f rfl).symm

end Sys2Proof.Proofs.Assembler
end

section
/-! PROOFS. The byte-oriented instructions: the refusal of an Unimplemented operand, the result and the flags of each
instruction in numbers, and where a result is stored (40_byte_oriented.md R80 to R102; 42_literal_control.md R125, R126;
20_memory.md R43, R47). -/

namespace Sys2Proof.Proofs.ByteOriented

open Sys2Proof Sys2Proof.Machine Sys2Proof.Proofs.StoreRules Sys2Proof.Proofs.FileOperands
  Sys2Proof.Proofs.DataMemory

/-! ### The file operand comes first -/

/-- Every instruction with a file operand locates it before anything else (R80). -/
theorem exec_eq_withOperand {i : Instr} {f : FAddr} (hf : fileOperand i = some f) (s : State) :
    ∃ k, exec i s = withOperand s f k := by
  cases i
  case nop | ret | retfie | option | sleep | clrwdt | clrw => cases hf
  case call | goto | movlw | retlw | iorlw | andlw | xorlw | sublw | addlw => cases hf
  case movwf | clrf | subwf | decf | iorwf | andwf | xorwf | addwf | movf | comf | incf | decfsz | rrf | rlf | swapf
      | incfsz | bcf | bsf | btfsc | btfss =>
    cases hf
    exact ⟨_, rfl⟩

/-- Settles O17: the refusal is where the operand is located. -/
theorem unimplementedFileIsRefused : Obligations.UnimplementedFileIsRefused := by
  intro i f s hf hnone
  obtain ⟨k, hexec⟩ := exec_eq_withOperand hf s
  rw [hexec, withOperand_none hnone]

/-! ### The f,d instructions in numbers -/

section

variable {instr : FAddr → Dest → Instr} {result : Nat → Nat → Nat → Nat}

/-- An f,d instruction completes with the numbers its bytes and flags come to. -/
theorem completesFd_of_computeFd {value : Byte → Byte → Bool → Byte} {update : Byte → Byte → Bool → FlagUpdate}
    {flags : Nat → Nat → Nat → FlagUpdate}
    (hexec : ∀ f d s, exec (instr f d) s = computeFd (fun m w c => (value m w c, update m w c)) f d s)
    (hvalue : ∀ m w c, (value m w c).toNat = result m.toNat w.toNat c.toNat)
    (hflags : ∀ m w c, update m w c = flags m.toNat w.toNat c.toNat) : CompletesFd instr result flags := by
  intro f d s l ho
  rw [hexec, computeFd, withOperand_some ho, ← hvalue, ← hflags, BitVec.ofNat_toNat, BitVec.setWidth_eq]

/-- Z of a result, from the number it comes to (10_state.md R14). -/
theorem beq_zero_of_toNat {r : Byte} {n : Nat} (h : r.toNat = n) : (r == 0) = decide (n = 0) := by
  rw [beq_eq_decide, ← h]
  exact decide_eq_decide.mpr (BitVec.toNat_inj (y := 0)).symm

/-- An f,d instruction that affects Z alone completes with the number its byte comes to. -/
theorem completesFd_of_zOf {value : Byte → Byte → Bool → Byte}
    (hexec : ∀ f d s, exec (instr f d) s = computeFd (fun m w c => (value m w c, zOf (value m w c))) f d s)
    (hvalue : ∀ m w c, (value m w c).toNat = result m.toNat w.toNat c.toNat) :
    CompletesFd instr result (fun m w c => ⟨none, none, some (decide (result m w c = 0))⟩) :=
  completesFd_of_computeFd hexec hvalue fun m w c => by rw [zOf, beq_zero_of_toNat (hvalue m w c)]

end

/-! ### The arithmetic instructions -/

/-- F minus W is F plus the complement of W plus one (10_state.md R14). -/
theorem toNat_sub_eq_complement (m w : Byte) : (m - w).toNat = (m.toNat + (255 - w.toNat) + 1) % 256 := by
  have hw := w.isLt
  rw [BitVec.toNat_sub]
  omega

/-- Less one is plus 255, which wraps (R87). -/
theorem toNat_decrement (m : Byte) : (m - 1).toNat = (m.toNat + 255) % 256 := toNat_sub_eq_complement m 1

/-- The flags of an addition, all three in numbers. -/
theorem addFlags_eq (m w : Byte) :
    addFlags m w = ⟨some (decide (m.toNat + w.toNat > 255)), some (decide (m.toNat % 16 + w.toNat % 16 > 15)),
      some (decide ((m.toNat + w.toNat) % 256 = 0))⟩ := by
  rw [addFlags, beq_zero_of_toNat (BitVec.toNat_add m w)]

/-- The flags of a subtraction, all three in the numbers of F plus the complement of W plus one. -/
theorem subFlags_eq_complement (m w : Byte) :
    subFlags m w = ⟨some (decide (m.toNat + (255 - w.toNat) + 1 > 255)),
      some (decide (m.toNat % 16 + (15 - w.toNat % 16) + 1 > 15)),
      some (decide ((m.toNat + (255 - w.toNat) + 1) % 256 = 0))⟩ := by
  rw [subFlags, beq_zero_of_toNat (toNat_sub_eq_complement m w)]

/-- Settles O18: the sum and its flags, the difference and its flags. -/
theorem addwfAndSubwfComplete : Obligations.AddwfAndSubwfComplete :=
  ⟨completesFd_of_computeFd (update := fun m w _ => addFlags m w) (fun _ _ _ => rfl)
      (fun m w _ => BitVec.toNat_add m w) fun m w _ => addFlags_eq m w,
    completesFd_of_computeFd (update := fun m w _ => subFlags m w) (fun _ _ _ => rfl)
      (fun m w _ => toNat_sub_eq_complement m w) fun m w _ => subFlags_eq_complement m w⟩

/-- Settles O20: each is a byte with a number, and Z. -/
theorem decfIncfMovfComplete : Obligations.DecfIncfMovfComplete :=
  ⟨completesFd_of_zOf (fun _ _ _ => rfl) fun m _ _ => toNat_decrement m,
    completesFd_of_zOf (fun _ _ _ => rfl) fun m _ _ => BitVec.toNat_add m 1,
    completesFd_of_zOf (fun _ _ _ => rfl) fun _ _ _ => rfl⟩

/-! ### The logic instructions -/

/-- Settles O19: the operations of bytes are those of numbers bit by bit. -/
theorem logicInstructionsComplete : Obligations.LogicInstructionsComplete :=
  ⟨completesFd_of_zOf (fun _ _ _ => rfl) fun m w _ => BitVec.toNat_and m w,
    completesFd_of_zOf (fun _ _ _ => rfl) fun _ _ _ => BitVec.toNat_not,
    completesFd_of_zOf (fun _ _ _ => rfl) fun m w _ => BitVec.toNat_or m w,
    completesFd_of_zOf (fun _ _ _ => rfl) fun m w _ => BitVec.toNat_xor m w⟩

/-! ### The rotates and SWAPF -/

/-- `m[6:0] : c` in numbers: bit 7 of 2 m + c falls out (R98). -/
theorem rotateLeft_toNat (m : Byte) (c : Bool) : (rotateLeft m c).toNat = (2 * m.toNat + c.toNat) % 256 := by
  have hc := c.toNat_lt
  rw [rotateLeft, BitVec.toNat_append, ← Nat.shiftLeft_add_eq_or_of_lt (BitVec.isLt _), Nat.shiftLeft_eq,
    BitVec.extractLsb'_toNat, BitVec.toNat_ofBool, Nat.shiftRight_zero]
  omega

/-- `c : m[7:1]` in numbers (R99). -/
theorem rotateRight_toNat (m : Byte) (c : Bool) : (rotateRight m c).toNat = 128 * c.toNat + m.toNat / 2 := by
  have hm := m.isLt
  rw [rotateRight, ofBool_append_toNat, BitVec.extractLsb'_toNat, Nat.shiftRight_eq_div_pow, Nat.mod_eq_of_lt (by omega)]
  cases c <;> rfl

/-- `m[3:0] : m[7:4]` in numbers (R101). -/
theorem swapNibbles_toNat (m : Byte) : (swapNibbles m).toNat = 16 * (m.toNat % 16) + m.toNat / 16 := by
  have hm := m.isLt
  rw [swapNibbles, BitVec.toNat_append, ← Nat.shiftLeft_add_eq_or_of_lt (BitVec.isLt _), Nat.shiftLeft_eq,
    BitVec.extractLsb'_toNat, BitVec.extractLsb'_toNat, Nat.shiftRight_zero, Nat.shiftRight_eq_div_pow]
  omega

/-- The bit a rotate to the left moves into C. -/
theorem getLsbD_seven (m : Byte) : m.getLsbD 7 = decide (m.toNat / 128 = 1) := by
  have hm := m.isLt
  rw [BitVec.getLsbD, Nat.testBit_eq_decide_div_mod_eq]
  exact decide_eq_decide.mpr (by omega)

/-- The bit a rotate to the right moves into C. -/
theorem getLsbD_zero (m : Byte) : m.getLsbD 0 = decide (m.toNat % 2 = 1) := Nat.testBit_zero _

/-- Settles O21: the byte, and the bit that leaves it. -/
theorem rotatesAndSwapComplete : Obligations.RotatesAndSwapComplete :=
  ⟨completesFd_of_computeFd (update := fun m _ _ => cOnly (m.getLsbD 7)) (fun _ _ _ => rfl)
      (fun m _ c => rotateLeft_toNat m c) fun m _ _ => congrArg cOnly (getLsbD_seven m),
    completesFd_of_computeFd (update := fun m _ _ => cOnly (m.getLsbD 0)) (fun _ _ _ => rfl)
      (fun m _ c => rotateRight_toNat m c) fun m _ _ => congrArg cOnly (getLsbD_zero m),
    completesFd_of_computeFd (update := fun _ _ _ => noFlags) (fun _ _ _ => rfl)
      (fun m _ _ => swapNibbles_toNat m) fun _ _ _ => rfl⟩

/-! ### The skips -/

/-- Where pc goes after an instruction and a skip of `taken` (R89). -/
theorem pc_skipIf (p : PAddr) (taken : Bool) :
    (if taken then p + 1 + 1 else p + 1) = BitVec.ofNat 13 ((p.toNat + if taken then 2 else 1) % 8192) := by
  cases taken with
  | false => exact pc_add_one p
  | true =>
    apply BitVec.eq_of_toNat_eq
    simp [BitVec.toNat_add]

/-- A decrement or increment with skip completes with the number its byte comes to, where it does not write PCL. -/
theorem completesFdSkip_of_computeFdSkip {instr : FAddr → Dest → Instr} {value : Byte → Byte} {result : Nat → Nat}
    (hexec : ∀ f d s, exec (instr f d) s = computeFdSkip value f d s)
    (hvalue : ∀ m, (value m).toNat = result m.toNat) : CompletesFdSkip instr result := by
  intro f d s l ho hpcl
  have hzero := beq_zero_of_toNat (hvalue (readLoc l s))
  rw [hexec, computeFdSkip, withOperand_some ho, if_neg hpcl, State.skipIf, storeResult_pc, if_neg hpcl, afterRead_pc,
    pc_skipIf, hzero, ← hvalue, BitVec.ofNat_toNat, BitVec.setWidth_eq]
  simp only [decide_eq_true_eq]

/-- Settles O22: the two instructions differ in their result alone. -/
theorem decfszAndIncfszComplete : Obligations.DecfszAndIncfszComplete :=
  ⟨completesFdSkip_of_computeFdSkip (fun _ _ _ => rfl) toNat_decrement,
    completesFdSkip_of_computeFdSkip (fun _ _ _ => rfl) fun m => BitVec.toNat_add m 1⟩

/-! ### Where a result goes -/

/-- Settles O27, destination by destination: the write there, then the flags, with pc one further. -/
theorem resultGoesToWOrToTheRegister : Obligations.ResultGoesToWOrToTheRegister := by
  intro l v u s finished
  have hfinished : ∀ t : State, finished t = { t with status := applyFlags u s.status, pc := s.pc + 1 } := fun t => by
    rw [pc_add_one]
  refine ⟨?w, fun a hram => ⟨ramSet s.ram a.toNat v, ?ram, ?same, ?other⟩, ?fsr, ?pclath, ?intcon, ?optionReg,
    fun n a => ?port, ?null⟩
  case w => rw [hfinished, storeResult_w]
  case same => exact ramGet_ramSet_same hram a.toNat v
  case other => exact fun n hn => ramGet_ramSet_other s.ram a.toNat v hn
  case pclath =>
    rw [hfinished, storeResult_f, writeLoc, writeSfr_pclath]
    rfl
  case ram | fsr | intcon | optionReg | port | null =>
    rw [hfinished, storeResult_f]
    rfl

/-! ### The instructions that do not compute from an operand -/

/-- A value written without a read is stored in the state before (R47). -/
theorem writeOnly_of_operand {f : FAddr} {l : Loc} {s : State} (ho : operand s f = some l) (v : Byte)
    (u : FlagUpdate) : writeOnly v u f s = .next (storeResult .f l v u s) := withOperand_some ho _

/-- Settles O23: both are a write without a read. -/
theorem clrfAndMovwfComplete : Obligations.ClrfAndMovwfComplete := fun _ s _ ho =>
  ⟨writeOnly_of_operand ho 0x00 (zOf 0x00), writeOnly_of_operand ho s.w noFlags⟩

/-- Settles O24: each advances pc and writes at most one register, CLRW Z too. -/
theorem clrwNopMovlwOptionComplete : Obligations.ClrwNopMovlwOptionComplete := by
  intro k s
  rw [← pc_add_one]
  exact ⟨rfl, rfl, rfl, rfl⟩

end Sys2Proof.Proofs.ByteOriented
end

section
/-! PROOFS. The bit-oriented instructions: the byte BCF and BSF write back in numbers, and the skip of BTFSC and BTFSS
(41_bit_oriented.md R110 to R114; 40_byte_oriented.md R89). -/

namespace Sys2Proof.Proofs.BitOriented

open Sys2Proof Sys2Proof.Machine Sys2Proof.Proofs.FileOperands Sys2Proof.Proofs.ByteOriented

variable {f : FAddr} {l : Loc} {s : State}

/-! ### BCF and BSF -/

/-- A bit cleared, in numbers (R111): the mask is the complement of the bit, within a byte for the eight bits there
are. -/
theorem setBit_false_eq (v : Byte) {i : Nat} (hi : i < 8) :
    setBit v i false = BitVec.ofNat 8 (v.toNat &&& (255 - 2 ^ i)) := by
  have hbit : (1#8 <<< i).toNat = 2 ^ i := by
    rw [BitVec.toNat_shiftLeft, BitVec.toNat_ofNat, Nat.shiftLeft_eq, Nat.one_mul,
      Nat.mod_eq_of_lt (Nat.pow_lt_pow_right (by decide) hi)]
  have hmask : (~~~(1#8 <<< i)).toNat = 255 - 2 ^ i := by rw [BitVec.toNat_not, hbit]
  rw [setBit, if_neg nofun, ← hmask, ← BitVec.toNat_and, BitVec.ofNat_toNat, BitVec.setWidth_eq]

/-- On an implemented operand, the byte read is written back with one bit changed and no flag (R110). -/
theorem changeBit_of_operand (ho : operand s f = some l) (x : Bool) (b : BitVec 3) :
    changeBit x f b s = .next (storeResult .f l (setBit (readLoc l s) b.toNat x) noFlags (afterRead l s)) :=
  withOperand_some ho _

/-- Settles O35: a bit changed is the byte of R111 or R112. -/
theorem bcfAndBsfComplete : Obligations.BcfAndBsfComplete := by
  intro f b s l ho
  rw [← setBit_false_eq _ b.isLt, ← setBit_true_eq]
  exact ⟨changeBit_of_operand ho false b, changeBit_of_operand ho true b⟩

/-! ### BTFSC and BTFSS -/

/-- The test of a bit, in numbers. -/
theorem getLsbD_beq (m : Byte) (i : Nat) (x : Bool) :
    (m.getLsbD i == x) = decide (m.toNat / 2 ^ i % 2 = x.toNat) := by
  rw [BitVec.getLsbD, Nat.testBit_eq_decide_div_mod_eq]
  rcases Nat.mod_two_eq_zero_or_one (m.toNat / 2 ^ i) with h | h <;> cases x <;> simp [h]

/-- A file instruction that only reads and may skip changes pc and what the read changes (R89). -/
theorem afterRead_advance_skipIf (l : Loc) (s : State) (taken : Bool) :
    (afterRead l s).advance.skipIf taken =
      { afterRead l s with pc := BitVec.ofNat 13 ((s.pc.toNat + if taken then 2 else 1) % 8192) } := by
  rw [← pc_skipIf, ← afterRead_pc l s]
  rfl

/-- On an implemented operand, the skip is taken where the bit is the one asked for (R113, R114). -/
theorem skipOnBit_of_operand (ho : operand s f = some l) (x : Bool) (b : BitVec 3) :
    skipOnBit x f b s = .next { afterRead l s with
      pc := BitVec.ofNat 13 ((s.pc.toNat + if (readLoc l s).toNat / 2 ^ b.toNat % 2 = x.toNat then 2 else 1) % 8192) } := by
  rw [skipOnBit, withOperand_some ho, afterRead_advance_skipIf, getLsbD_beq]
  simp only [decide_eq_true_eq]

/-- Settles O36: the two instructions differ in the bit they ask for alone. -/
theorem btfscAndBtfssComplete : Obligations.BtfscAndBtfssComplete := fun _ b _ _ ho =>
  ⟨skipOnBit_of_operand ho false b, skipOnBit_of_operand ho true b⟩

end Sys2Proof.Proofs.BitOriented
end

section
/-! PROOFS. The literal and control instructions: the result and the flags of each literal instruction in numbers, TO and
PD after CLRWDT and SLEEP, and where the returns go (42_literal_control.md R120 to R124, R127 to R132; 10_state.md R14,
R15, R21; 60_exceptions.md R153, R156). -/

namespace Sys2Proof.Proofs.LiteralControl

open Sys2Proof Sys2Proof.Machine Sys2Proof.Proofs.StoreRules Sys2Proof.Proofs.ByteOriented

/-! ### The literal instructions in numbers -/

section

variable {instr : Byte → Instr} {value : Byte → Byte → Byte} {result : Nat → Nat → Nat}

/-- A literal instruction completes with the numbers its byte and flags come to. -/
theorem completesLiteral_of_resultInW {update : Byte → Byte → FlagUpdate} {flags : Nat → Nat → FlagUpdate}
    (hexec : ∀ k s, exec (instr k) s = resultInW (value k s.w) (update k s.w) s)
    (hvalue : ∀ k w, (value k w).toNat = result k.toNat w.toNat)
    (hflags : ∀ k w, update k w = flags k.toNat w.toNat) : CompletesLiteral instr result flags := by
  intro k s
  rw [hexec, ← hvalue, ← hflags, BitVec.ofNat_toNat, BitVec.setWidth_eq, ← pc_add_one]
  rfl

/-- A literal instruction that affects Z alone completes with the number its byte comes to. -/
theorem completesLiteral_of_zOf (hexec : ∀ k s, exec (instr k) s = resultInW (value k s.w) (zOf (value k s.w)) s)
    (hvalue : ∀ k w, (value k w).toNat = result k.toNat w.toNat) :
    CompletesLiteral instr result (fun k w => ⟨none, none, some (decide (result k w = 0))⟩) :=
  completesLiteral_of_resultInW (update := fun k w => zOf (value k w)) hexec hvalue fun k w => by
    rw [zOf, beq_zero_of_toNat (hvalue k w)]

end

/-- Settles O37: W plus the literal, and the literal minus W. -/
theorem addlwAndSublwComplete : Obligations.AddlwAndSublwComplete :=
  ⟨completesLiteral_of_resultInW (update := fun k w => addFlags w k) (fun _ _ => rfl)
      (fun k w => BitVec.toNat_add w k) fun k w => addFlags_eq w k,
    completesLiteral_of_resultInW (update := subFlags) (fun _ _ => rfl) toNat_sub_eq_complement subFlags_eq_complement⟩

/-- Settles O38: the operations of bytes are those of numbers bit by bit. -/
theorem literalLogicCompletes : Obligations.LiteralLogicCompletes :=
  ⟨completesLiteral_of_zOf (fun _ _ => rfl) fun k w => BitVec.toNat_and w k,
    completesLiteral_of_zOf (fun _ _ => rfl) fun k w => BitVec.toNat_or w k,
    completesLiteral_of_zOf (fun _ _ => rfl) fun k w => BitVec.toNat_xor w k⟩

/-! ### CLRWDT and SLEEP -/

/-- TO and PD given values are bits 4 and 3 masked out and put in; the other six bits stay (10_state.md R13, R15). -/
theorem withToPd_status_eq_mask (s : State) (timeOut powerDown : Bool) :
    (s.withToPd timeOut powerDown).status =
      (s.status &&& 0xE7) ||| ((if timeOut then 0x10 else 0x00) ||| (if powerDown then 0x08 else 0x00)) := by
  refine BitVec.eq_of_getLsbD_eq fun j hj => ?_
  rw [withToPd_getLsbD]
  unfold bitPD bitTO
  cases timeOut <;> cases powerDown <;> interval_cases j <;> simp

/-- Settles O40: TO and PD by their masks, the other fields as `advance` and `clearWatchdog` leave them. -/
theorem clrwdtAndSleepComplete : Obligations.ClrwdtAndSleepComplete := by
  intro s
  have hclrwdt : (s.withToPd true true).status = (s.status &&& 0xE7) ||| 0x18 := withToPd_status_eq_mask s true true
  have hsleep : (s.withToPd true false).status = (s.status &&& 0xE7) ||| 0x10 := withToPd_status_eq_mask s true false
  rw [← hclrwdt, ← hsleep, ← pc_add_one]
  exact ⟨rfl, rfl⟩

/-! ### The returns -/

section

variable {s : State} {a : PAddr} {rest : List PAddr}

/-- A return on an empty stack is a fault (10_state.md R21). -/
theorem returnFromStack_nil (h : s.stack = []) : returnFromStack s = .fault .stackUnderflow := by
  simp [returnFromStack, pop, h]

/-- So is a return from interrupt. -/
theorem returnFromInterrupt_nil (h : s.stack = []) : returnFromInterrupt s = .fault .stackUnderflow := by
  simp [returnFromInterrupt, pop, h]

/-- RETFIE goes to the top entry and sets bit 7 of INTCON (R127). -/
theorem exec_retfie_cons (h : s.stack = a :: rest) :
    exec .retfie s = .next { s with pc := a, stack := rest, intcon := s.intcon ||| 0x80 } :=
  returnFromInterrupt_cons h

end

/-- Settles O41: RETLW is the common return after W is loaded, RETFIE the one that sets GIE. -/
theorem returnsComplete : Obligations.ReturnsComplete := by
  intro k s a rest
  have hloaded : ({ s with w := k } : State).stack = s.stack := rfl
  constructor
  · intro hcons
    exact ⟨returnFromStack_cons hcons, returnFromStack_cons (hloaded.trans hcons), exec_retfie_cons hcons⟩
  · intro hnil
    exact ⟨returnFromStack_nil hnil, returnFromStack_nil (hloaded.trans hnil), returnFromInterrupt_nil hnil⟩

/-- Settles O52: the entry left the interrupted address on top of the interrupted stack, and RETFIE pops it. -/
theorem retfieUndoesInterruptEntry : Obligations.RetfieUndoesInterruptEntry := by
  intro s t u hentry hstack
  obtain ⟨-, rfl⟩ := interruptEntry_next hentry
  exact exec_retfie_cons hstack

end Sys2Proof.Proofs.LiteralControl
end

section
/-! PROOFS. CALL and GOTO: where they go in numbers, what CALL pushes or the fault on a full stack, and the return to the
instruction after the CALL (43_call_goto.md R141, R142; 42_literal_control.md R129; 10_state.md R21). -/

namespace Sys2Proof.Proofs.CallGoto

open Sys2Proof Sys2Proof.Machine Sys2Proof.Proofs.StoreRules

variable {s : State}

/-- The target of CALL and GOTO as a program address: PCLATH[4:3] and the operand make up all 13 bits. -/
theorem pageTarget_eq_ofNat (s : State) (k : BitVec 11) :
    pageTarget s k = BitVec.ofNat 13 (2048 * (s.pclath.toNat / 8) + k.toNat) := by
  rw [← pageTarget_toNat, BitVec.ofNat_toNat, BitVec.setWidth_eq]

/-- Without room a push is the fault (10_state.md R21). -/
theorem push_of_full (h : s.part.stackDepth ≤ s.stack.length) (v : PAddr) : push v s = .error .stackOverflow :=
  if_neg (Nat.not_lt_of_le h)

/-- CALL with room on the stack (R141). -/
theorem execCall_of_room (h : s.stack.length < s.part.stackDepth) (k : BitVec 11) :
    execCall k s = .next { s with stack := (s.pc + 1) :: s.stack, pc := pageTarget s k } := by
  rw [execCall, push_of_room h]

/-- CALL on a full stack: no state follows, so neither the stack nor pc changes. -/
theorem execCall_of_full (h : s.part.stackDepth ≤ s.stack.length) (k : BitVec 11) :
    execCall k s = .fault .stackOverflow := by
  rw [execCall, push_of_full h]

/-- Settles O42: GOTO goes to the page target, CALL too, by whether the stack has room for the next address. -/
theorem callAndGotoComplete : Obligations.CallAndGotoComplete := by
  intro k s
  rw [← pageTarget_eq_ofNat, ← pc_add_one]
  exact ⟨rfl, fun hroom => execCall_of_room hroom k, fun hfull => execCall_of_full hfull k⟩

/-- Settles O43: CALL left the next address on top of the caller's stack, and RETURN pops it. -/
theorem returnGoesBackToTheCaller : Obligations.ReturnGoesBackToTheCaller := by
  intro k s t u hcall hstack
  obtain ⟨-, rfl⟩ := execCall_next hcall
  rw [← pc_add_one]
  exact returnFromStack_cons hstack

end Sys2Proof.Proofs.CallGoto
end

section
/-! PROOFS. Interrupt entry, the boundary of an awake core, the two wake-ups and the watchdog reset (60_exceptions.md
R151 to R155, R159, R160; 10_state.md R22, R24; 70_reset_and_hazards.md R170, R171). -/

namespace Sys2Proof.Proofs.Interrupts

open Sys2Proof Sys2Proof.Machine Sys2Proof.Proofs.BitOriented Sys2Proof.Proofs.CallGoto
  Sys2Proof.Proofs.LiteralControl Sys2Proof.Proofs.ResetAndMap Sys2Proof.Proofs.StatusAndPc

variable {s : State}

/-! ### Interrupt entry -/

/-- GIE cleared is bit 7 dropped from INTCON (R22). -/
theorem withGie_false_intcon (s : State) : (s.withGie false).intcon = BitVec.ofNat 8 (s.intcon.toNat % 128) := by
  rw [State.withGie_intcon, setBit_false_eq _ (by decide)]
  exact congrArg (BitVec.ofNat 8) (Nat.and_two_pow_sub_one_eq_mod s.intcon.toNat 7)

/-- Interrupt entry with room on the stack (R153). -/
theorem interruptEntry_of_room (h : s.stack.length < s.part.stackDepth) :
    interruptEntry s =
      .next { s.withGie false with stack := s.pc :: s.stack, pc := irqVector, wake := .idle } := by
  have hpush : push s.pc (s.withGie false) = .ok { s.withGie false with stack := s.pc :: s.stack } := push_of_room h
  rw [interruptEntry, hpush]

/-- Interrupt entry on a full stack (10_state.md R21). -/
theorem interruptEntry_of_full (h : s.part.stackDepth ≤ s.stack.length) :
    interruptEntry s = .fault .stackOverflow := by
  have hfull : (s.withGie false).part.stackDepth ≤ (s.withGie false).stack.length := h
  rw [interruptEntry, push_of_full hfull]

/-- Settles O49, by whether the stack has room. -/
theorem interruptEntryEffect : Obligations.InterruptEntryEffect := by
  intro s
  rw [← withGie_false_intcon]
  exact ⟨interruptEntry_of_room, interruptEntry_of_full⟩

/-! ### The request -/

/-- The flag bits of the reference sources are INTCON bits 2 to 0 (R151). -/
theorem flagMask_reference_getLsbD (j : Nat) : (flagMask referenceIrqSources).getLsbD j = decide (j < 3) := by
  have hmask : flagMask referenceIrqSources = BitVec.ofNat 8 (2 ^ 3 - 1) := by decide
  rw [hmask, BitVec.getLsbD_ofNat, Nat.testBit_two_pow_sub_one]
  by_cases hj : j < 3
  · simp [hj, Nat.lt_trans hj (by decide : 3 < 8)]
  · simp [hj]

/-- The flag bits after the environment sets some: those of the part's sources among them (R151). -/
theorem raiseFlags_intcon_getLsbD (bits : Byte) (s : State) (j : Nat) :
    (s.raiseFlags bits).intcon.getLsbD j =
      (s.intcon.getLsbD j || (bits.getLsbD j && (flagMask s.part.irqSources).getLsbD j)) := by
  rw [State.raiseFlags_intcon, BitVec.getLsbD_or, BitVec.getLsbD_and]

/-- The request of the reference device, source by source (R151). -/
theorem irqPending_reference (line : Bool) (h : s.part.irqSources = referenceIrqSources) :
    irqPending line s =
      ((s.intcon.getLsbD 5 && s.intcon.getLsbD 2) || (s.intcon.getLsbD 4 && s.intcon.getLsbD 1) ||
        (s.intcon.getLsbD 3 && s.intcon.getLsbD 0) || (s.intcon.getLsbD 6 && line)) := by
  rw [irqPending, h]
  simp [referenceIrqSources, sourcePending, Bool.or_assoc]

/-- Settles O51: the four sources one by one, and the mask of their flag bits. -/
theorem referenceInterruptRequest : Obligations.ReferenceInterruptRequest := by
  intro line bits s hsources
  refine ⟨irqPending_reference line hsources, fun j => ?_⟩
  rw [raiseFlags_intcon_getLsbD, hsources, flagMask_reference_getLsbD, Bool.and_comm (decide _)]

/-! ### The boundary of an awake core -/

/-- An awake core without a reset or a time-out: interrupt entry, or the instruction at pc (R152, R155). -/
theorem step_of_awake (hno : s.NoReset) (hawake : s.asleep = false) :
    step s = if takesEntry s.irqSampled s.nextBoundary.admitEntry s.sampled then interruptEntry s.sampled
      else fetchExec (s.sampled.withWake s.wake.next) := by
  rw [step_of_noReset hno, if_neg (Bool.eq_false_iff.mp hawake)]

/-- With no wake-up in progress an entry needs GIE, a request and the environment's leave (R152). -/
theorem takesEntry_idle (h : s.wake = .idle) (pending admitted : Bool) :
    takesEntry pending admitted s = (s.gie && (pending && admitted)) := by rw [takesEntry, h]

/-- Right after a wake-up the instruction at pc comes first (R160). -/
theorem takesEntry_instrFirst (h : s.wake = .instrFirst) (pending admitted : Bool) :
    takesEntry pending admitted s = false := by rw [takesEntry, h, Bool.and_false]

/-- One instruction later an entry needs GIE, and a request or the environment's leave (R160, log 22). -/
theorem takesEntry_entryDue (h : s.wake = .entryDue) (pending admitted : Bool) :
    takesEntry pending admitted s = (s.gie && (pending || admitted)) := by rw [takesEntry, h]

/-- With no wake-up in progress none is begun by the fetch. -/
theorem step_of_idle (hno : s.NoReset) (hawake : s.asleep = false) (hidle : s.wake = .idle) :
    step s = if s.sampled.gie && (s.irqSampled && s.nextBoundary.admitEntry) then interruptEntry s.sampled
      else fetchExec s.sampled := by
  have hsampled : s.sampled.wake = .idle := s.sampled_wake.trans hidle
  have hsame : s.sampled.withWake WakePhase.idle.next = s.sampled := by
    rw [State.withWake, WakePhase.next, ← hsampled]
  rw [step_of_awake hno hawake, takesEntry_idle hsampled, hidle, hsame]

/-- Settles O50: the three conditions together, or one of them missing. -/
theorem interruptTakenAtTheBoundary : Obligations.InterruptTakenAtTheBoundary := by
  intro s hno hawake hidle
  rw [step_of_idle hno hawake hidle]
  constructor
  · intro hgie hirq hadmit
    simp [hgie, hirq, hadmit]
  · rintro (hgie | hirq | hadmit)
    · simp [hgie]
    · simp [hirq]
    · simp [hadmit]

/-! ### Wake-up by interrupt -/

/-- A sleeping core with a request wakes whatever GIE is (R160). -/
theorem step_of_asleep_requested (hno : s.NoReset) (hasleep : s.asleep = true) (hirq : s.irqSampled = true) :
    step s = .next (interruptWake s.sampled) := by
  rw [step_of_noReset hno, if_pos hasleep, if_pos hirq]

/-- The first step after the wake-up runs the instruction at pc (R160). -/
theorem step_of_instrFirst (hno : s.NoReset) (hawake : s.asleep = false) (hwake : s.wake = .instrFirst) :
    step s = fetchExec (s.sampled.withWake .entryDue) := by
  rw [step_of_awake hno hawake, takesEntry_instrFirst (s.sampled_wake.trans hwake), hwake]
  rfl

/-- The step after that is the entry where GIE and a request or the environment's leave are there (R160, log 22). -/
theorem step_of_entryDue (hno : s.NoReset) (hawake : s.asleep = false) (hwake : s.wake = .entryDue) :
    step s = if s.sampled.gie && (s.irqSampled || s.nextBoundary.admitEntry) then interruptEntry s.sampled
      else fetchExec (s.sampled.withWake .idle) := by
  rw [step_of_awake hno hawake, takesEntry_entryDue (s.sampled_wake.trans hwake), hwake]
  rfl

/-- Settles O53, phase by phase. -/
theorem wakeUpByInterrupt : Obligations.WakeUpByInterrupt := by
  intro s hno
  refine ⟨step_of_asleep_requested hno, step_of_instrFirst hno, fun hawake hwake => ?_⟩
  rw [step_of_entryDue hno hawake hwake]
  refine ⟨fun hgie hirq => ?_, fun hgie hirq => ?_, fun hgie => ?_⟩
  · simp [hgie, hirq]
  · simp [hgie, hirq]
  · simp [hgie]

/-! ### The watchdog time-out -/

/-- STATUS bits 7:5 after a reset (70_reset_and_hazards.md R170). -/
theorem controlReset_status_high (v : ResetValues) (s : State) {j : Nat} (hj : 5 ≤ j) :
    (controlReset v s).status.getLsbD j = false := by
  have hhigh : ¬j < 2 + 3 := by omega
  simp only [controlReset, BitVec.getLsbD_append, if_neg hhigh, BitVec.getLsbD_zero]

/-- STATUS after a watchdog reset: TO cleared, PD as it was, the bank bits cleared (R159). -/
theorem watchdogReset_status (v : ResetValues) (s : State) :
    (watchdogReset v s).status.getLsbD 4 = false ∧
      (watchdogReset v s).status.getLsbD 3 = s.status.getLsbD 3 ∧
      ∀ j, 5 ≤ j → (watchdogReset v s).status.getLsbD j = false := by
  unfold watchdogReset
  refine ⟨by rw [withToPd_getLsbD]; rfl, by rw [withToPd_getLsbD]; rfl, fun j hj => ?_⟩
  have hpd : j ≠ bitPD := by unfold bitPD; omega
  have hto : j ≠ bitTO := by unfold bitTO; omega
  rw [withToPd_getLsbD, if_neg hpd, if_neg hto, controlReset_status_high v s hj]

/-- INTCON after a reset holds at most the unspecified bit 0 (10_state.md R32). -/
theorem intconAtReset_toNat_lt (bit0 : Bool) : (intconAtReset bit0).toNat < 2 := by
  rw [intconAtReset_toNat]
  exact bit0.toNat_lt

/-- A wake-up by time-out in one update: TO and PD masked out of STATUS (R159). -/
theorem watchdogWake_eq (s : State) :
    watchdogWake s = { s with asleep := false, wake := .idle, status := s.status &&& 0xE7 } := by
  have hmask : (s.withToPd false false).status = s.status &&& 0xE7 :=
    (withToPd_status_eq_mask s false false).trans BitVec.or_zero
  rw [← hmask]
  rfl

/-- Settles O56: the reset of an awake core, the wake-up of a sleeping one, and no time-out without WDTE. -/
theorem watchdogTimeOut : Obligations.WatchdogTimeOut := by
  intro s v hx hv
  refine ⟨fun hwdte hawake => ?_, fun hwdte hasleep => ?_, fun hwdte hawake hirq hidle => ?_⟩
  · have hstep : step s = .next (watchdogReset v s.sampled) := by
      rw [step_watchdog hx hwdte hv, if_neg (Bool.eq_false_iff.mp hawake)]
    obtain ⟨hto, hpd, hbank⟩ := watchdogReset_status v s.sampled
    exact ⟨_, hstep, rfl, rfl, rfl, s.sampled_w, s.sampled_ram, rfl, rfl, hto, s.sampled_status ▸ hpd, hbank,
      intconAtReset_toNat_lt v.intcon0⟩
  · rw [step_watchdog hx hwdte hv, if_pos hasleep, watchdogWake_eq, s.sampled_status]
  · have hno : s.NoReset := ⟨hx, fun hon => absurd (hwdte.symm.trans hon) nofun⟩
    obtain ⟨-, hfetch⟩ := interruptTakenAtTheBoundary s hno hawake hidle
    exact hfetch (.inr (.inl hirq))

end Sys2Proof.Proofs.Interrupts
end

section
/-! PROOFS. When an instruction completes, and how an instruction and a step stop (60_exceptions.md R165;
40_byte_oriented.md R81; 10_state.md R19, R21; 00_scope.md R8). -/

namespace Sys2Proof.Proofs.Stops

open Sys2Proof Sys2Proof.Machine Sys2Proof.Proofs.BoundaryEvents Sys2Proof.Proofs.ByteOriented
  Sys2Proof.Proofs.CallGoto Sys2Proof.Proofs.FileOperands Sys2Proof.Proofs.Interrupts
  Sys2Proof.Proofs.LiteralControl Sys2Proof.Proofs.Sleep

variable {i : Instr} {s t : State}

/-! ### An instruction stops where it is not executable -/

/-- A skip that would write PCL is refused; only DECFSZ and INCFSZ write at all (10_state.md R19). -/
theorem exec_of_skip_to_pcl (hskip : isSkip i = true) (hdest : destination i s = some (.sfr .pcl)) :
    exec i s = .refused .undefinedCombination := by
  cases i with
  | decfsz f d =>
    cases d with
    | w => cases hdest
    | f => exact computeFdSkip_pcl (· - 1) hdest
  | incfsz f d =>
    cases d with
    | w => cases hdest
    | f => exact computeFdSkip_pcl (· + 1) hdest
  | btfsc | btfss => cases hdest
  | _ => cases hskip

/-- CALL on a full stack is the fault (10_state.md R21). -/
theorem exec_of_call_full (hcall : isCall i = true) (hfull : s.part.stackDepth ≤ s.stack.length) :
    exec i s = .fault .stackOverflow := by
  cases i with
  | call k => exact execCall_of_full hfull k
  | _ => cases hcall

/-- Each of the three returns on an empty stack is the fault (R21). -/
theorem exec_of_return_empty (hreturn : isReturn i = true) (hempty : s.stack = []) :
    exec i s = .fault .stackUnderflow := by
  cases i with
  | ret => exact returnFromStack_nil hempty
  | retlw k => exact returnFromStack_nil (s := { s with w := k }) hempty
  | retfie => exact returnFromInterrupt_nil hempty
  | _ => cases hreturn

/-! ### An executable instruction completes -/

/-- DECFSZ or INCFSZ with an implemented operand completes unless it writes PCL. -/
theorem computeFdSkip_completes {f : FAddr} {d : Dest} (compute : Byte → Byte) (hfile : operand s f ≠ none)
    (hpcl : ¬(d = .f ∧ operand s f = some (.sfr .pcl))) : ∃ t, computeFdSkip compute f d s = .next t := by
  obtain ⟨l, ho⟩ := Option.ne_none_iff_exists'.mp hfile
  rw [ho, Option.some.injEq] at hpcl
  exact ⟨_, (withOperand_some ho _).trans (if_neg hpcl)⟩

/-- The conditions of `Executable` are all an instruction needs, whichever of the 36 it is. -/
theorem exec_of_executable (h : Executable i s) : ∃ t, exec i s = .next t := by
  obtain ⟨hfile, hskip, hcall, hreturn⟩ := h
  cases i
  case nop | option | sleep | clrwdt | clrw => exact ⟨_, rfl⟩
  case goto | movlw | iorlw | andlw | xorlw | sublw | addlw => exact ⟨_, rfl⟩
  case call k => exact ⟨_, execCall_of_room (hcall rfl) k⟩
  case ret =>
    obtain ⟨a, rest, hs⟩ := List.exists_cons_of_ne_nil (hreturn rfl)
    exact ⟨_, returnFromStack_cons hs⟩
  case retlw k =>
    obtain ⟨a, rest, hs⟩ := List.exists_cons_of_ne_nil (hreturn rfl)
    exact ⟨_, returnFromStack_cons (s := { s with w := k }) hs⟩
  case retfie =>
    obtain ⟨a, rest, hs⟩ := List.exists_cons_of_ne_nil (hreturn rfl)
    exact ⟨_, returnFromInterrupt_cons hs⟩
  case decfsz f d =>
    refine computeFdSkip_completes (· - 1) (hfile f rfl) ?_
    rintro ⟨rfl, ho⟩
    exact hskip ⟨rfl, ho⟩
  case incfsz f d =>
    refine computeFdSkip_completes (· + 1) (hfile f rfl) ?_
    rintro ⟨rfl, ho⟩
    exact hskip ⟨rfl, ho⟩
  case movwf | clrf | subwf | decf | iorwf | andwf | xorwf | addwf | movf | comf | incf | rrf | rlf | swapf | bcf | bsf
      | btfsc | btfss =>
    obtain ⟨l, ho⟩ := Option.ne_none_iff_exists'.mp (hfile _ rfl)
    exact ⟨_, withOperand_some ho _⟩

/-- Settles O16: each condition that fails stops the instruction, and together they let it complete. -/
theorem execCompletesExactlyWhenExecutable : Obligations.ExecCompletesExactlyWhenExecutable := by
  refine fun i s => ⟨fun ⟨t, ht⟩ => ⟨fun f hf hnone => ?_, fun ⟨hskip, hdest⟩ => ?_, fun hcall => ?_,
    fun hreturn hempty => ?_⟩, exec_of_executable⟩
  · exact absurd (ht.symm.trans (unimplementedFileIsRefused i f s hf hnone)) nofun
  · exact absurd (ht.symm.trans (exec_of_skip_to_pcl hskip hdest)) nofun
  · exact Nat.lt_of_not_le fun hfull => absurd (ht.symm.trans (exec_of_call_full hcall hfull)) nofun
  · exact absurd (ht.symm.trans (exec_of_return_empty hreturn hempty)) nofun

/-! ### How a step stops -/

/-- The stops of an awake core that R165 lists: a refusal of the fetch or of the instruction, or a stack fault. -/
def ListedStop (s : State) : Outcome → Prop
  | .next _ => True
  | .refused r => r ∈ [Refusal.undefinedOpcode, .fetchOutsideProgram, .unprogrammedWord, .unimplementedFile,
      .undefinedCombination]
  | .fault r =>
    (r = .stackOverflow ∧ s.part.stackDepth ≤ s.stack.length) ∨ (r = .stackUnderflow ∧ s.stack = [])

/-- Which stops are listed depends on the stack and its depth alone. -/
theorem listedStop_congr {o : Outcome} (hpart : t.part = s.part) (hstack : t.stack = s.stack)
    (h : ListedStop t o) : ListedStop s o := by
  cases o with
  | next => trivial
  | refused => exact h
  | fault => rwa [ListedStop, hpart, hstack] at h

/-- Where an instruction is not executable, the condition that fails is the reason it stops for. -/
theorem exec_listedStop (i : Instr) (s : State) : ListedStop s (exec i s) := by
  by_cases hfile : ∃ f, fileOperand i = some f ∧ operand s f = none
  · obtain ⟨f, hf, hnone⟩ := hfile
    rw [unimplementedFileIsRefused i f s hf hnone]
    simp [ListedStop]
  by_cases hskip : isSkip i = true ∧ destination i s = some (.sfr .pcl)
  · obtain ⟨hs, hdest⟩ := hskip
    rw [exec_of_skip_to_pcl hs hdest]
    simp [ListedStop]
  by_cases hcall : isCall i = true ∧ s.part.stackDepth ≤ s.stack.length
  · obtain ⟨hc, hfull⟩ := hcall
    rw [exec_of_call_full hc hfull]
    exact .inl ⟨rfl, hfull⟩
  by_cases hreturn : isReturn i = true ∧ s.stack = []
  · obtain ⟨hr, hempty⟩ := hreturn
    rw [exec_of_return_empty hr hempty]
    exact .inr ⟨rfl, hempty⟩
  have hexecutable : Executable i s :=
    ⟨fun f hf hnone => hfile ⟨f, hf, hnone⟩, hskip, fun hc => Nat.lt_of_not_le fun hfull => hcall ⟨hc, hfull⟩,
      fun hr hempty => hreturn ⟨hr, hempty⟩⟩
  obtain ⟨t, ht⟩ := exec_of_executable hexecutable
  rw [ht]
  trivial

/-- The three refusals of the fetch (20_memory.md R41, 30_encoding.md R69, R70, log 11). -/
theorem fetchAt_error {p : PAddr} {r : Refusal} (h : fetchAt s p = .error r) :
    r ∈ [Refusal.undefinedOpcode, .fetchOutsideProgram, .unprogrammedWord] := by
  unfold fetchAt at h
  split at h
  · split at h
    · cases h
      simp
    · split at h
      · cases h
        simp
      · cases h
  · cases h
    simp

/-- The instruction at pc stops as listed, at its fetch or in its meaning. -/
theorem fetchExec_listedStop (s : State) : ListedStop s (fetchExec s) := by
  unfold fetchExec
  split
  · next r hfetch =>
    exact List.mem_append_left [Refusal.unimplementedFile, .undefinedCombination] (fetchAt_error hfetch)
  · next i _ => exact exec_listedStop i s

/-- Interrupt entry stops on a full stack alone. -/
theorem interruptEntry_listedStop (s : State) : ListedStop s (interruptEntry s) := by
  rcases Nat.lt_or_ge s.stack.length s.part.stackDepth with hroom | hfull
  · rw [interruptEntry_of_room hroom]
    trivial
  · rw [interruptEntry_of_full hfull]
    exact .inl ⟨rfl, hfull⟩

/-- A reset or a time-out has a next state, so a step that stops has neither. -/
theorem step_next_or_noReset (s : State) : (∃ t, step s = .next t) ∨ s.NoReset := by
  by_cases hx : s.part.extReset = true ∧ ∃ v, s.nextBoundary.externalReset = some v
  · obtain ⟨hp, v, hv⟩ := hx
    exact .inl ⟨_, step_externalReset hp hv⟩
  have hx' : s.part.extReset = true → s.nextBoundary.externalReset = none := fun hp =>
    Option.eq_none_iff_forall_ne_some.mpr fun v hv => hx ⟨hp, v, hv⟩
  by_cases hw : s.part.wdte = true ∧ ∃ v, s.nextBoundary.watchdog = some v
  · obtain ⟨hp, v, hv⟩ := hw
    exact .inl ⟨_, step_watchdog hx' hp hv⟩
  · exact .inr (noReset_of_no_watchdog hx' hw)

/-- The step of an awake core stops as listed: in the entry it takes, or in the instruction at pc. -/
theorem step_listedStop_of_awake (hno : s.NoReset) (hawake : s.asleep = false) : ListedStop s (step s) := by
  rw [step_of_awake hno hawake]
  split
  · exact listedStop_congr s.sampled_part s.sampled_stack (interruptEntry_listedStop _)
  · exact listedStop_congr s.sampled_part s.sampled_stack (fetchExec_listedStop (s.sampled.withWake _))

/-- The step of a sleeping core stops only where nothing is scheduled (log 21). -/
theorem step_stop_of_asleep (hno : s.NoReset) (hasleep : s.asleep = true) :
    (∃ t, step s = .next t) ∨ (step s = .fault .stuckAsleep ∧ s.env = []) := by
  cases hirq : s.irqSampled with
  | true => exact .inl ⟨_, step_of_asleep_requested hno hasleep hirq⟩
  | false =>
    obtain ⟨hstuck, hsleepsOn⟩ := asleepWithoutEventIsStuck s hno hasleep hirq
    by_cases henv : s.env = []
    · exact .inr ⟨hstuck henv, henv⟩
    · exact .inl ⟨_, hsleepsOn henv⟩

/-- Settles O15: a step with a reset or a time-out does not stop; asleep or awake, the others stop as listed. -/
theorem stepStopsOnlyAsListed : Obligations.StepStopsOnlyAsListed := by
  intro s
  rcases step_next_or_noReset s with ⟨t, ht⟩ | hno
  · rw [ht]
    exact ⟨nofun, nofun⟩
  cases ha : s.asleep with
  | true =>
    rcases step_stop_of_asleep hno ha with ⟨t, ht⟩ | ⟨hstuck, henv⟩
    · rw [ht]
      exact ⟨nofun, nofun⟩
    · rw [hstuck]
      exact ⟨nofun, fun r hr => .inr (.inr ⟨(Host.Outcome.fault.inj hr).symm, rfl, henv⟩)⟩
  | false =>
    have hlisted := step_listedStop_of_awake hno ha
    refine ⟨fun r hr => ?_, fun r hr => ?_⟩
    · rw [hr] at hlisted
      exact ⟨rfl, hlisted⟩
    · rw [hr] at hlisted
      exact hlisted.imp_right .inl

end Sys2Proof.Proofs.Stops
end

section
/-! PROOFS. The external reset as a whole step, and the cycle counts (70_reset_and_hazards.md R170, R171, R180;
60_exceptions.md R155, R160). -/

namespace Sys2Proof.Proofs.ResetAndTiming

open Sys2Proof Sys2Proof.Machine Sys2Proof.Proofs.Interrupts Sys2Proof.Proofs.Stops

variable {i : Instr} {s t : State}

/-! ### The external reset -/

/-- A control reset keeps TO and PD, bits 4 and 3 of STATUS (R171). -/
theorem controlReset_status_toPd (v : ResetValues) (s : State) {j : Nat} (hpd : 3 ≤ j) (hto : j < 5) :
    (controlReset v s).status.getLsbD j = s.status.getLsbD j := by
  have hlow : ¬j < 3 := by omega
  have hmiddle : j - 3 < 2 := by omega
  simp only [controlReset, BitVec.getLsbD_append, BitVec.getLsbD_extractLsb', if_pos hto, if_neg hlow,
    decide_eq_true hmiddle, Bool.true_and, Nat.add_sub_cancel' hpd]

/-- Writing TO and PD leaves the bits of STATUS above them (R15). -/
theorem withToPd_status_high (s : State) (timeOut powerDown : Bool) {j : Nat} (hj : 5 ≤ j) :
    (s.withToPd timeOut powerDown).status.getLsbD j = s.status.getLsbD j := by
  have hpd : j ≠ bitPD := by unfold bitPD; omega
  have hto : j ≠ bitTO := by unfold bitTO; omega
  rw [withToPd_getLsbD, if_neg hpd, if_neg hto]

/-- An external reset is the control reset; whether the core was asleep shows in STATUS alone (R171). -/
theorem externalReset_eq (v : ResetValues) (s : State) :
    externalReset v s = { controlReset v s with status := (externalReset v s).status } := by
  unfold externalReset
  split <;> rfl

/-- STATUS after an external reset: the bank bits cleared, TO and PD kept awake, 1 and 0 asleep (R160, R171). -/
theorem externalReset_status (v : ResetValues) (s : State) :
    (∀ j, 5 ≤ j → (externalReset v s).status.getLsbD j = false) ∧
      (s.asleep = false → (externalReset v s).status.getLsbD 4 = s.status.getLsbD 4 ∧
        (externalReset v s).status.getLsbD 3 = s.status.getLsbD 3) ∧
      (s.asleep = true → (externalReset v s).status.getLsbD 4 = true ∧
        (externalReset v s).status.getLsbD 3 = false) := by
  unfold externalReset
  cases s.asleep with
  | false =>
    refine ⟨fun _ hj => controlReset_status_high v s hj, fun _ => ⟨?_, ?_⟩, nofun⟩
    · exact controlReset_status_toPd v s (by decide) (by decide)
    · exact controlReset_status_toPd v s (by decide) (by decide)
  | true =>
    refine ⟨fun j hj => ?_, nofun, fun _ => ⟨?_, ?_⟩⟩
    · exact (withToPd_status_high _ true false hj).trans (controlReset_status_high v s hj)
    · exact withToPd_getLsbD (controlReset v s) true false 4
    · exact withToPd_getLsbD (controlReset v s) true false 3

/-- Settles O58: the reset is the whole step, the control reset gives the fields, and STATUS is read bit by bit. -/
theorem externalReset : Obligations.ExternalReset := by
  intro s v hallowed hscheduled
  refine ⟨_, step_externalReset hallowed hscheduled, ?_⟩
  obtain ⟨hbank, hawake, hasleep⟩ := externalReset_status v s.sampled
  rw [s.sampled_asleep, s.sampled_status] at hawake
  rw [s.sampled_asleep] at hasleep
  rw [externalReset_eq]
  exact ⟨rfl, s.sampled_w, s.sampled_ram, rfl, rfl, rfl, rfl, intconAtReset_toNat_lt v.intcon0, hbank, hawake, hasleep⟩

/-! ### Cycle counts -/

/-- The cycles by the kind of the instruction, the jumps first (R180). -/
theorem cycles_eq (i : Instr) (s t : State) :
    cycles i s t =
      if isCall i = true ∨ isGoto i = true ∨ isReturn i = true then 2
      else if isSkip i = true then if t.pc = s.pc + 2 then 2 else 1
      else if destination i s = some (.sfr .pcl) then 2 else 1 := by
  cases i <;> rfl

/-- A skip is no CALL, no GOTO and no return. -/
theorem fallsThrough_of_isSkip (h : isSkip i = true) : fallsThrough i := by
  cases i with
  | decfsz | incfsz | btfsc | btfss => exact ⟨rfl, rfl, rfl⟩
  | _ => cases h

/-- What is no CALL, no GOTO and no return takes its cycles from the skip or from the write of PCL. -/
theorem cycles_of_fallsThrough (h : fallsThrough i) :
    cycles i s t =
      if isSkip i = true then if t.pc = s.pc + 2 then 2 else 1
      else if destination i s = some (.sfr .pcl) then 2 else 1 := by
  obtain ⟨hcall, hgoto, hreturn⟩ := h
  rw [cycles_eq, if_neg (by simp [hcall, hgoto, hreturn])]

/-- The address a taken skip goes to, in numbers (40_byte_oriented.md R89). -/
theorem pc_eq_add_two_iff (p q : PAddr) : q = p + 2 ↔ q.toNat = (p.toNat + 2) % 8192 :=
  BitVec.toNat_inj.symm.trans (by rw [BitVec.toNat_add]; rfl)

/-- A skip takes two cycles exactly where it went two words further (R180). -/
theorem cycles_of_isSkip (h : isSkip i = true) :
    cycles i s t = if t.pc.toNat = (s.pc.toNat + 2) % 8192 then 2 else 1 := by
  simp only [cycles_of_fallsThrough (fallsThrough_of_isSkip h), if_pos h, pc_eq_add_two_iff]

/-- A completed write of PCL takes two cycles: no skip completes that would write it (R180, 10_state.md R19). -/
theorem cycles_of_pcl (h : exec i s = .next t) (hdest : destination i s = some (.sfr .pcl)) : cycles i s t = 2 := by
  have hskip : ¬isSkip i = true := fun hs => absurd (h.symm.trans (exec_of_skip_to_pcl hs hdest)) nofun
  rw [cycles_eq, if_neg hskip, if_pos hdest, ite_self]

/-- Settles O48, kind by kind. -/
theorem cycleCounts : Obligations.CycleCounts := by
  refine fun i s t h => ⟨fun hjump => ?_, fun hskip htaken => ?_, fun hskip hnext => ?_, cycles_of_pcl h,
    fun hcall hgoto hreturn hskip hdest => ?_⟩
  · rw [cycles_eq, if_pos hjump]
  · rw [cycles_of_isSkip hskip, if_pos htaken]
  · rw [cycles_of_isSkip hskip, if_neg (by omega)]
  · rw [cycles_of_fallsThrough ⟨hcall, hgoto, hreturn⟩, if_neg (Bool.eq_false_iff.mp hskip), if_neg hdest]

end Sys2Proof.Proofs.ResetAndTiming
end

section
/-! PROOFS. What this model names where R32 gives no reset value (log 4, log 5). -/

namespace Sys2Proof.Proofs.ResetNames

open Sys2Proof Sys2Proof.Machine Sys2Proof.Proofs.ResetAndMap

/-- Settles O60: power-on passes the unspecified values on, and the values the model names there are zero. -/
theorem resetNamesZeroForUnspecified : Obligations.ResetNamesZeroForUnspecified := by
  obtain ⟨-, hstatus, -, hintcon, -, -, -, -, -, hw, hfsr, hram⟩ := powerOnReset referencePart [] PowerOnValues.named
  have hempty : ∀ n, ramGet State.reset.ram n = unlistedByte := fun n => congrArg (ramGet · n) hram
  exact ⟨hw, hfsr, BitVec.eq_of_toNat_eq hstatus, BitVec.eq_of_toNat_eq hintcon, hempty⟩

end Sys2Proof.Proofs.ResetNames
end
